-- ==== Sys2Proof/Word.lean ====
section
/-! DEFINITION. The byte of the Hall Link; every other number of the HC-612 is an integer in a fixed unit
(00_scope.md 2.1, 2.2), held as a Nat where it cannot be negative and as an Int where it can. -/

namespace Sys2Proof

/-- One byte on the trunk or on a segment. -/
abbrev Byte := BitVec 8

end Sys2Proof
end

