-- ==== Sys2Proof/Syntax.lean ====
section
/-! DEFINITION. The commands of the HC-612, one constructor for each row of spec/opcode_table.json, with the
operands the frame, the pins or the tick carries. A command is one of the part's steps, whole and indivisible
(95_what_each_step_holds.md). -/

namespace Sys2Proof

/-- A point identity, (segment, node, channel), 00_scope.md 2.3. -/
structure PointId where
  seg : Nat
  node : Nat
  chan : Nat
deriving DecidableEq, Repr

/-- The header fields of a station frame that its REPLY copies (R22, R25): the segment nibble, the node, the channel
and the sequence. -/
structure TrunkHdr where
  seg : BitVec 4
  node : Byte
  chan : Byte
  seq : Byte
deriving DecidableEq, Repr

/-- The two lighting sources, A and B (Table 9-6). -/
inductive SourceId
  | a
  | b
deriving DecidableEq, Repr

/-- The level of an input pin, in the order of Table 10-3. -/
inductive Level
  | high
  | low
deriving DecidableEq, Repr

/-- One cue step (Table 9-5). `marks` holds bit c − 1 for channel c (R193). -/
structure StepRecord where
  scene : Nat
  fade : Nat
  prescale : Nat
  count : Nat
  marks : Byte
deriving DecidableEq, Repr

/-- The interval timers of Table 5-3, each by its owner. -/
inductive TimerId
  | evaluation (z : Fin 8)
  | occupancyHold (z : Fin 8)
  | supplyOffDelay (z : Fin 8)
  | travel (c : Fin 6)
  | purgeInterval (c : Fin 6)
  | purgeDuration (c : Fin 6)
  | validity (c : Fin 6)
  | cueHold (src : SourceId)
  | dormantWatch
  | trunkSilence
  | echo (p : PointId)
deriving DecidableEq, Repr

/-- The commands. A trunk command carries the header of its frame; a virtual SET's header is fixed by its function
(Table 4-2) but for the sequence, and its fade is disregarded (Section 4.5), so neither is an operand. -/
inductive Instr
  /-- POWER_ON: the strap pins and the eight input pins (bit i: pin INi high) at the release of reset. -/
  | powerOn (straps : BitVec 4) (lines : BitVec 8)
  | badTrunkFrame
  | foreignTrunkFrame
  | poll (h : TrunkHdr)
  | trunkFrameOtherKind (h : TrunkHdr) (kind : Byte)
  | stationSet (h : TrunkHdr) (value : Int) (fade : Nat)
  | modeRequest (seq : Byte) (value : Int)
  | plantCapacity (seq : Byte) (value : Int)
  | splitPosition (seq : Byte) (value : Int)
  | cueSelect (src : SourceId) (seq : Byte) (value : Int)
  | cueAdvance (src : SourceId) (seq : Byte) (value : Int)
  | coverClose (c : Fin 6) (seq : Byte)
  | coverOpen (c : Fin 6) (seq : Byte)
  | coverStop (c : Fin 6) (seq : Byte)
  | resetFault (c : Fin 6) (seq : Byte)
  | zoneOverride (z : Fin 8) (seq : Byte) (value : Int)
  | zoneTrim (z : Fin 8) (seq : Byte) (value : Int)
  | identify (h : TrunkHdr)
  | loopback (h : TrunkHdr) (data : List Byte)
  | readStatus (h : TrunkHdr) (page : Byte)
  | readPoint (h : TrunkHdr) (point : Byte) (page : Byte)
  | readZone (h : TrunkHdr) (zone : Byte) (page : Byte)
  | readCover (h : TrunkHdr) (cover : Byte) (page : Byte)
  | readSource (h : TrunkHdr) (source : Byte)
  | readPalette (h : TrunkHdr) (entry : Byte)
  | acknowledgeInput (h : TrunkHdr) (index : Byte)
  | acknowledgeNode (h : TrunkHdr) (index : Byte)
  /-- ACKNOWLEDGE of any kind code other than INPUT (0) and NODE (1). -/
  | acknowledgeCondition (h : TrunkHdr) (kind : Byte) (index : Byte)
  | clear (h : TrunkHdr)
  | go (h : TrunkHdr) (bank : Byte)
  | halt (h : TrunkHdr)
  | bankSwitch (h : TrunkHdr) (bank : Byte)
  | loadBegin (h : TrunkHdr) (bank : Byte) (count : BitVec 16)
  | loadRecord (h : TrunkHdr) (number : BitVec 16) (kind : Byte) (body : List Byte)
  | loadEnd (h : TrunkHdr)
  | palettePointer (h : TrunkHdr) (entry : Byte)
  | paletteWrite (h : TrunkHdr) (values : List Int)
  | loopWrite (h : TrunkHdr) (loop : Byte) (first : Byte) (steps : List StepRecord)
  | loopLength (h : TrunkHdr) (loop : Byte) (length : Byte)
  | unknownRequest (h : TrunkHdr) (code : Byte)
  | segmentPoll (seg : Fin 4)
  | rollCallPoll (seg : Fin 4)
  | sample (seg : Fin 4) (node chan seq : Byte) (value : Int) (status : Byte)
  | echo (seg : Fin 4) (node chan seq : Byte) (value : Int) (status : Byte)
  | hello (seg : Fin 4) (node : Byte) (classCode channels : Byte)
  | endFrame (seg : Fin 4) (node : Byte)
  | badSegmentFrame (seg : Fin 4)
  | answerSilence (seg : Fin 4)
  | missedAnswer (seg : Fin 4)
  | echoMiss (p : PointId)
  | agingSweep
  | fadeTick
  | evaluationTimerExpiry (z : Fin 8)
  | occupancyHoldExpiry (z : Fin 8)
  | dormantWatchExpiry
  | travelTimerExpiry (c : Fin 6)
  | purgeIntervalExpiry (c : Fin 6)
  | purgeDurationExpiry (c : Fin 6)
  | validityExpiry (c : Fin 6)
  | cueHoldExpiry (src : SourceId)
  | supplyOffDelayExpiry (z : Fin 8)
  | inputLineChange (line : Fin 8) (level : Level)
  | debouncedTransition (line : Fin 8)
  | trunkSilenceExpiry
  | timerCountTick (t : TimerId)
  | trunkFrameSent
deriving DecidableEq, Repr

end Sys2Proof
end

