-- ==== Sys2Proof/Machine/State.lean ====
section
/-! DEFINITION. The state of the HC-612: every queue, table, record, timer, counter, flag and pin the spec gives it,
as plain data, and its value right after reset (R179). Enumerations list their names in the spec's order, which is
the order of their codes (R191). -/

namespace Sys2Proof.Machine

/-! ### Names -/

/-- Table 11-1. -/
inductive RunState
  | bypass
  | running
  | autonomous
deriving DecidableEq, Repr

/-- Table 1-3. -/
inductive BankState
  | empty
  | loading
  | ready
  | active
deriving DecidableEq, Repr

/-- Table 1-6. -/
inductive Quality
  | unknown
  | good
  | suspect
  | stale
  | lost
deriving DecidableEq, Repr

/-- The actuator statuses of an ECHO, Table 2-2. -/
inductive ActStatus
  | applied
  | limited
  | localHand
  | fault
deriving DecidableEq, Repr

/-- The sensor statuses of a SAMPLE, Table 2-2. -/
inductive SensorStatus
  | ok
  | fault
  | calibrating
deriving DecidableEq, Repr

/-- The quality bytes of Table 3-1. -/
inductive QualityByte
  | good
  | suspectRange
  | suspectStatus
  | unlisted
  | notSensor
deriving DecidableEq, Repr

/-- The hall modes, R166. -/
inductive Mode
  | openHall
  | staffed
  | night
  | dormant
deriving DecidableEq, Repr

/-- The latched conditions of Table 11-4. -/
inductive Condition
  | queueOverrun
  | condensation
  | plantShort
  | coverFault
  | purgeFailed
  | loadAbandoned
  | input
deriving DecidableEq, Repr

/-- The notices of Table 11-5. -/
inductive NoticeKind
  | nodeJoined
  | nodeLost
  | pointLost
  | condensationSet
  | condensationClear
  | plantShort
  | coverEvent
  | purgeDone
  | purgeFailed
  | inputLatched
  | inputReleased
  | modeChanged
  | bankSwitched
  | loadAbandoned
deriving DecidableEq, Repr

/-- The quantities a sensor measures, Table 1-1. -/
inductive Quantity
  | airTemp
  | airRh
  | waterTemp
  | surfaceTemp
  | outdoorTemp
  | outdoorRh
  | occupancy
  | coverPosition
  | generic
deriving DecidableEq, Repr

/-- The actuator kinds, Table 1-1. -/
inductive ActKind
  | heatValve
  | oaDamper
  | dehumStage
  | supplyFan
  | purgeFan
  | coverDrive
  | lamp
  | lampSupply
  | generic
deriving DecidableEq, Repr

/-- A point's class with its quantity or its kind, Table 1-1. -/
inductive Role
  | sensor (q : Quantity)
  | actuator (k : ActKind)
deriving DecidableEq, Repr

/-- Who commands an actuator, Table 1-1; also the origin of a SET (Table 2-5). A sensor's owner NONE is `none` of an
Option. -/
inductive Owner
  | station
  | climate
  | cover
  | lighting
deriving DecidableEq, Repr

/-- The forward policies, Table 1-1, in its order. -/
inductive Policy
  | all
  | everyN
  | onChange
  | none
deriving DecidableEq, Repr

/-- The lamp classes, Table 1-1. -/
inductive LampClass
  | ambient
  | underwater
  | accent
deriving DecidableEq, Repr

/-- The senses of an input, Table 1-2. -/
inductive Sense
  | activeHigh
  | activeLow
deriving DecidableEq, Repr

/-- The latching of an input, Table 1-2. -/
inductive Latching
  | edge
  | edgeAndLevel
deriving DecidableEq, Repr

/-- The actions of an input, Table 1-2; their codes are R175's. -/
inductive Action
  | noticeOnly
  | evacuate
  | coverStop
  | plantTrip
  | requestNight
  | requestStaffed
deriving DecidableEq, Repr

/-- Table 7-2. -/
inductive Strategy
  | none
  | outdoorAir
  | heatPump
deriving DecidableEq, Repr

/-- Table 8-2. -/
inductive CoverState
  | opened
  | closing
  | closed
  | opening
  | halted
  | fault
deriving DecidableEq, Repr

/-- Table 8-2. -/
inductive HaltReason
  | command
  | sensor
  | occupied
  | dark
  | stopped
  | derived
  | reset
deriving DecidableEq, Repr

/-- Table 8-3. -/
inductive PurgeState
  | idle
  | waiting
  | running
deriving DecidableEq, Repr

/-- Table 9-7. -/
inductive SupplyState
  | off
  | powering
  | on
  | stopping
deriving DecidableEq, Repr

/-- Table 2-3. -/
inductive NodeState
  | absent
  | present
  | lost
deriving DecidableEq, Repr

/-! ### Timers -/

/-- Table 5-1. The base, the mode and the start kind are fixed for each timer by Table 5-3 and are not held. -/
structure Timer where
  running : Bool
  prescale : Nat
  setting : Nat
  prescaler : Nat
  count : Nat
deriving DecidableEq, Repr

/-- IDLE at power-on (R80). The settings (1, 1) are those of no start yet: DESIGN CHOICE (log 6). -/
def Timer.idle : Timer := { running := false, prescale := 1, setting := 1, prescaler := 0, count := 0 }

/-- A (prescale, count) setting, 00_scope.md 2.4. -/
structure Pair where
  prescale : Nat
  count : Nat
deriving DecidableEq, Repr

/-! ### Records of a bank -/

/-- Table 1-1. Ignored fields are 0 (R2). -/
structure PointDef where
  id : PointId
  role : Role
  zone : Option (Fin 8)
  owner : Option Owner
  low : Int
  high : Int
  policy : Policy
  n : Nat
  delta : Nat
  stale : Nat
  override : Bool
  strip : Nat
  lampClass : LampClass
  watts : Nat
  coverNo : Nat
deriving DecidableEq, Repr

/-- The ZONE record, Tables 1-2, 7-1 and 12-6. -/
structure ZoneRec where
  index : Fin 8
  inUse : Bool
  period : Nat
  lampGain : Nat
  waterOffset : Nat
  setback : Nat
  dewLimit : Int
  marginTarget : Nat
  weight : Nat
  credit : Nat
  approach : Nat
  occupiedOa : Nat
  dehumFan : Nat
  fallback : Nat
  setMin : Nat
  setMax : Nat
  heatBand : Nat
  dehumBand : Nat
  hpOn : Nat
  hpOff : Nat
  dayFan : Nat
  nightFan : Nat
deriving DecidableEq, Repr

/-- The COVER record, Tables 1-2, 8-1 and 12-7. -/
structure CoverRec where
  index : Fin 6
  inUse : Bool
  zone : Nat
  drive : PointId
  position : PointId
  fan : PointId
  travel : Nat
  interval : Pair
  duration : Pair
  validity : Pair
  workLight : Nat
  oaFloor : Nat
  fanFloor : Nat
deriving DecidableEq, Repr

/-- The INPUT record, Tables 1-2 and 12-7. -/
structure InputRec where
  index : Fin 8
  enabled : Bool
  sense : Sense
  latching : Latching
  action : Action
deriving DecidableEq, Repr

/-- The PLANT record, Tables 1-2 and 12-7. -/
structure PlantRec where
  order : List Nat
  pairBits : BitVec 4
  capacity : Nat
deriving DecidableEq, Repr

/-- The HALL record, Tables 1-2 and 12-7. -/
structure HallRec where
  hold : Pair
  supplyOff : Pair
  watch : Pair
  darkFade : Nat
deriving DecidableEq, Repr

/-- The six record kinds, R8. -/
inductive Record
  | point (d : PointDef)
  | zone (r : ZoneRec)
  | cover (r : CoverRec)
  | input (r : InputRec)
  | plant (r : PlantRec)
  | hall (r : HallRec)
deriving DecidableEq, Repr

/-- A record with the sequence number it was accepted under, R8. -/
structure Stored where
  number : Nat
  record : Record
deriving DecidableEq, Repr

/-- A definition bank: its state and its records in the order they were accepted (R5, R8). -/
structure Bank where
  state : BankState
  records : List Stored
deriving DecidableEq, Repr

/-- EMPTY, R5. -/
def Bank.blank : Bank := { state := .empty, records := [] }

/-- The load context, R5. -/
structure LoadCtx where
  bank : Fin 2
  declared : Nat
  expected : Nat
  accepted : Nat
deriving DecidableEq, Repr

/-! ### Point Status -/

/-- Table 1-6. -/
structure PointStatus where
  value : Int
  quality : Quality
  age : Nat
  counter : Nat
  forwarded : Int
  forwardAge : Nat
  missed : Bool
  commanded : Option Int
  origin : Option Owner
  status : Option ActStatus
  misses : Nat
  late : Nat
  resend : Bool
deriving DecidableEq, Repr

/-- The UNKNOWN form, R16. -/
def PointStatus.unknown : PointStatus :=
  { value := 0, quality := .unknown, age := 0, counter := 0, forwarded := 0, forwardAge := 0, missed := false,
    commanded := none, origin := none, status := none, misses := 0, late := 0, resend := false }

/-- A row of the Point Status table. -/
structure StatusRow where
  id : PointId
  st : PointStatus
deriving DecidableEq, Repr

/-! ### The field link -/

/-- A Hall Link frame as the part sends it: the header of Table 2-1 and the payload. -/
structure Frame where
  addr : Byte
  kind : Byte
  seg : BitVec 4
  service : Bool
  more : Bool
  node : Byte
  chan : Byte
  seq : Byte
  payload : List Byte
deriving DecidableEq, Repr

/-- Table 2-3. -/
structure Presence where
  state : NodeState
  misses : Nat
  joined : Bool
deriving DecidableEq, Repr

/-- Table 2-5. -/
structure SendEntry where
  point : PointId
  value : Int
  fade : Nat
  origin : Owner
  trunkSeq : Byte
deriving DecidableEq, Repr

/-- Table 4-1. `trunkSeq` is meaningful for origin STATION only. -/
structure PendEntry where
  point : PointId
  fieldSeq : Byte
  value : Int
  origin : Owner
  trunkSeq : Byte
  timer : Timer
deriving DecidableEq, Repr

/-- A poll exchange in progress, R29 and R36: the polled node, whether it is a roll call, whether a valid first frame
has come, how many valid frames that are not END were taken, and whether a HELLO was handled. -/
structure Exchange where
  node : Fin 31
  rollCall : Bool
  answered : Bool
  frames : Nat
  helloSeen : Bool
deriving DecidableEq, Repr

/-- What a Segment Master holds (Section 2.3). `roundPos` is the next address of the round, 31 past the last;
`lastFrame` is the last frame the master sent, the model's own view of the line (DESIGN CHOICE, log 8). -/
structure Segment where
  nodes : Vector Presence 31
  queue : List SendEntry
  fieldSeq : Byte
  roundCounter : Fin 4
  roundPos : Nat
  rollCall : Fin 31
  crcCount : Nat
  missCount : Nat
  exchange : Option Exchange
  lastFrame : Option Frame
deriving DecidableEq, Repr

/-- A Segment Master at power-on, R28, R33, R38, R40. -/
def Segment.blank : Segment :=
  { nodes := Vector.replicate 31 { state := .absent, misses := 0, joined := false }
    queue := [], fieldSeq := 0, roundCounter := 0, roundPos := 0, rollCall := 0, crcCount := 0, missCount := 0
    exchange := none, lastFrame := none }

/-- A NOTICE, Table 11-5, with the notice sequence it took (R27). -/
structure Notice where
  kind : NoticeKind
  subject : Nat
  first : Int
  second : Int
  seq : Byte
deriving DecidableEq, Repr

/-- Upstream Queue entries, Table 3-3. Values and statuses are the node's payload as received. -/
inductive UpEntry
  | sample (id : PointId) (seq : Byte) (value : Int) (status : Byte) (quality : QualityByte)
  | echo (id : PointId) (trunkSeq : Byte) (value : Int) (status : Byte)
  | notice (n : Notice)
deriving DecidableEq, Repr

/-- What the trunk transmitter is doing: nothing, so the receiver hunts; sending the `sent`-th entry of the answer to
the POLL with header `h`; or sending a REPLY (R26, R183). -/
inductive TrunkTx
  | hunting
  | entry (sent : Nat) (h : TrunkHdr) (f : Frame)
  | reply (f : Frame)
deriving DecidableEq, Repr

/-- The latched-condition set, one flag for each condition of Table 11-4 (R188). -/
structure Latched where
  queueOverrun : Bool
  condensation : Bool
  plantShort : Bool
  coverFault : Bool
  purgeFailed : Bool
  loadAbandoned : Bool
  input : Bool
deriving DecidableEq, Repr

/-- The empty set. -/
def Latched.none : Latched :=
  { queueOverrun := false, condensation := false, plantShort := false, coverFault := false, purgeFailed := false,
    loadAbandoned := false, input := false }

/-! ### The jobs -/

/-- The live zone state of Table 7-2, with the zone's evaluation and occupancy hold timers (Table 5-3). -/
structure Zone where
  air : Int
  rh : Int
  dew : Int
  margin : Int
  marginValid : Bool
  degraded : Bool
  rangeT : Bool
  dewLow : Bool
  water : Int
  waterUsable : Bool
  setpoint : Int
  setpointValid : Bool
  dehum : Int
  heat : Int
  risk : Bool
  strategy : Strategy
  hp : Bool
  starved : Nat
  unstarved : Nat
  plantShort : Bool
  request : Nat
  grant : Nat
  lampLoad : Int
  lastValve : Option Int
  lastOa : Option Int
  lastFan : Option Int
  lastStage : Option Int
  refresh : Nat
  occupied : Bool
  oaFloor : Nat
  fanFloor : Nat
  trim : Int
  override : Bool
  evalTimer : Timer
  holdTimer : Timer
deriving DecidableEq, Repr

/-- The starting form of R97, with both timers IDLE. -/
def Zone.start : Zone :=
  { air := 0, rh := 0, dew := 0, margin := 0, marginValid := false, degraded := false, rangeT := false
    dewLow := false, water := 0, waterUsable := false, setpoint := 0, setpointValid := false, dehum := 0, heat := 0
    risk := false, strategy := .none, hp := false, starved := 0, unstarved := 0, plantShort := false, request := 0
    grant := 0, lampLoad := 0, lastValve := none, lastOa := none, lastFan := none, lastStage := none, refresh := 0
    occupied := false, oaFloor := 0, fanFloor := 0, trim := 0, override := false, evalTimer := Timer.idle
    holdTimer := Timer.idle }

/-- The outdoor record, Table 6-2. -/
structure Outdoor where
  usable : Bool
  temp : Int
  rh : Int
  dew : Int
  rangeT : Bool
  dewLow : Bool
deriving DecidableEq, Repr

/-- All fields 0 and all flags clear, R95. -/
def Outdoor.blank : Outdoor := { usable := false, temp := 0, rh := 0, dew := 0, rangeT := false, dewLow := false }

/-- The live cover state, Table 8-2. -/
structure Cover where
  state : CoverState
  haltReason : Option HaltReason
  derivePending : Bool
  openPending : Bool
  purge : PurgeState
  valid : Bool
  runFailed : Bool
  confirmed : Bool
  travel : Timer
  interval : Timer
  duration : Timer
  validity : Timer
deriving DecidableEq, Repr

/-- The record of a cover that has no cover machine: still, its purge machine IDLE, its timers IDLE (R120, log 7). -/
def Cover.blank : Cover :=
  { state := .opened, haltReason := none, derivePending := false, openPending := false, purge := .idle
    valid := false, runFailed := false, confirmed := false, travel := Timer.idle, interval := Timer.idle
    duration := Timer.idle, validity := Timer.idle }

/-- A palette entry, Table 9-1. -/
structure Levels where
  ambient : Int
  underwater : Int
  accent : Int
deriving DecidableEq, Repr

/-- The palette and its write pointer, Table 9-1. `held` is the holding triple, oldest value first. -/
structure Palette where
  entries : Vector Levels 64
  entry : Fin 64
  lampClass : LampClass
  held : List Int
deriving DecidableEq, Repr

/-- The palette at power-on, R141. -/
def Palette.dark : Palette :=
  { entries := Vector.replicate 64 { ambient := 0, underwater := 0, accent := 0 }
    entry := 1, lampClass := .ambient, held := [] }

/-- A cue loop, R150. -/
structure Loop where
  length : Nat
  steps : Vector StepRecord 64
deriving DecidableEq, Repr

/-- A loop at power-on, R150. -/
def Loop.blank : Loop :=
  { length := 0, steps := Vector.replicate 64 { scene := 0, fade := 0, prescale := 0, count := 1, marks := 0 } }

/-- A source, Table 9-6: STOPPED is `none`, PLAYING is the loop and the current step. -/
structure Source where
  playing : Option (Fin 4 × Fin 64)
  hold : Timer
deriving DecidableEq, Repr

/-- A STOPPED source with its timer IDLE, R152. -/
def Source.stopped : Source := { playing := none, hold := Timer.idle }

/-- A lamp record, Table 9-3. -/
structure Lamp where
  start : Int
  target : Int
  fade : Nat
  elapsed : Nat
  deferred : Bool
deriving DecidableEq, Repr

/-- A lamp record at GO, R145. -/
def Lamp.dark : Lamp := { start := 0, target := 0, fade := 0, elapsed := 0, deferred := false }

/-- A lamp of the strip with its record. -/
structure LampRow where
  id : PointId
  lamp : Lamp
deriving DecidableEq, Repr

/-- A zone's supply machine, R156 and Table 9-7. -/
structure Supply where
  state : SupplyState
  awaiting : List PointId
  offDelay : Timer
deriving DecidableEq, Repr

/-- A supply machine at GO, R157. -/
def Supply.start : Supply := { state := .off, awaiting := [], offDelay := Timer.idle }

/-- An input line: the pin, whether its stability interval runs, the debounced level, and the latch, clear or set
with the action it holds (Table 10-3, R174, R175; log 35). -/
structure InputLine where
  level : Level
  settling : Bool
  debounced : Level
  latch : Option Action
deriving DecidableEq, Repr

/-- Line `i` at the release of the reset pin: the debounced level is the pin's, without a transition, and the latch is
clear (R174, R178). -/
def InputLine.sampled (lines : BitVec 8) (i : Fin 8) : InputLine :=
  let v : Level := if lines.getLsb i then .high else .low
  { level := v, settling := false, debounced := v, latch := none }

/-! ### The state -/

/-- The state of the part and the queue of commands that wait for it. -/
structure State where
  pending : List Instr
  trunkAddr : Byte
  runState : RunState
  silence : Timer
  protocolError : Bool
  trunkCrc : Nat
  tx : TrunkTx
  latched : Latched
  noticeSeq : Byte
  upstream : List UpEntry
  overrun : Nat
  clamps : Nat
  echoes : List PendEntry
  segs : Vector Segment 4
  banks : Vector Bank 2
  load : Option LoadCtx
  active : Option (Fin 2)
  table : List StatusRow
  zones : Vector Zone 8
  outdoor : Outdoor
  capacity : Option Nat
  priority : List (Fin 8)
  covers : Vector Cover 6
  palette : Palette
  loops : Vector Loop 4
  sourceA : Source
  sourceB : Source
  split : Nat
  lamps : List LampRow
  supplies : Vector (Option Supply) 8
  mode : Option Mode
  dormantPending : Bool
  watch : Timer
  inputs : Vector InputLine 8
  freeCount : Nat
deriving DecidableEq, Repr

/-- The spec names nothing that stops the part, so no meaning faults today. -/
inductive Fault
  /-- Raised by no meaning; kept so that the type is inhabited. Safe: a stop proves no false claim. -/
  | noneNamed
deriving DecidableEq, Repr

/-- Why the model has no meaning for a command. -/
inductive Refusal
  /-- Raised by an arm of exec whose command has no meaning yet; no arm is in that case now. Safe. -/
  | notModelled (mnemonic : String)
deriving DecidableEq, Repr

/-- The state after a power-on with the strap pins at `straps` and the input pins at `lines`, with `pending` still
waiting (R179; each chapter's power-on values). The free-value counter runs on. -/
def State.atPowerOn (straps : BitVec 4) (lines : BitVec 8) (pending : List Instr) (freeCount : Nat) : State :=
  { pending := pending
    trunkAddr := straps.zeroExtend 8 + 1
    runState := .bypass
    silence := Timer.idle
    protocolError := false
    trunkCrc := 0
    tx := .hunting
    latched := Latched.none
    noticeSeq := 0
    upstream := []
    overrun := 0
    clamps := 0
    echoes := []
    segs := Vector.replicate 4 Segment.blank
    banks := Vector.replicate 2 Bank.blank
    load := none
    active := none
    table := []
    zones := Vector.replicate 8 Zone.start
    outdoor := Outdoor.blank
    capacity := none
    priority := []
    covers := Vector.replicate 6 Cover.blank
    palette := Palette.dark
    loops := Vector.replicate 4 Loop.blank
    sourceA := Source.stopped
    sourceB := Source.stopped
    split := 96
    lamps := []
    supplies := Vector.replicate 8 none
    mode := none
    dormantPending := false
    watch := Timer.idle
    inputs := #v[InputLine.sampled lines 0, InputLine.sampled lines 1, InputLine.sampled lines 2,
      InputLine.sampled lines 3, InputLine.sampled lines 4, InputLine.sampled lines 5, InputLine.sampled lines 6,
      InputLine.sampled lines 7]
    freeCount := freeCount }

/-- The part right after reset. The strap pins and the input pins are outside the part: all low here (DESIGN CHOICE,
log 5); POWER_ON samples them. -/
def State.reset : State := State.atPowerOn 0 0 [] 0

end Sys2Proof.Machine
end

