-- ==== Sys2Proof/Machine/Ops.lean ====
section
/-! DEFINITION. The named operations every block works through: the tables of zones, covers, segments and inputs, the
active bank's definitions, interval timers, the Upstream Queue with its notices, the latched conditions, the send queues
and the admission of job SETs. -/

namespace Sys2Proof.Machine

/-- Apply `f` for each member of a list in order. -/
def forEach {α : Type} (l : List α) (f : α → State → State) (s : State) : State :=
  l.foldl (fun t a => f a t) s

/-- Apply `f` to every entry of a table. -/
def mapVector {α β : Type} {n : Nat} (f : α → β) (v : Vector α n) : Vector β n := Vector.ofFn fun i => f v[i]

/-- The eight zones in ascending number. -/
def allZones : List (Fin 8) := [0, 1, 2, 3, 4, 5, 6, 7]

/-- The six covers in ascending number. -/
def allCovers : List (Fin 6) := [0, 1, 2, 3, 4, 5]

/-- The eight inputs in ascending number. -/
def allInputs : List (Fin 8) := [0, 1, 2, 3, 4, 5, 6, 7]

/-- The four segments, A to D. -/
def allSegs : List (Fin 4) := [0, 1, 2, 3]

/-! ### Numbers -/

/-- Clamp to a range: below the low end becomes the low end, above the high end the high end. -/
def clampTo (lo hi v : Int) : Int := if v < lo then lo else if v > hi then hi else v

/-- A count that rises by one and saturates (Table 12-8). -/
def satSucc (limit n : Nat) : Nat := min (n + 1) limit

/-- The saturation limit of the link and queue counts, Table 12-8. -/
def countLimit : Nat := 65535

/-! ### Tables of State -/

def State.zone (s : State) (z : Fin 8) : Zone := s.zones[z]

def State.setZone (s : State) (z : Fin 8) (v : Zone) : State := { s with zones := s.zones.set z v }

def State.modZone (z : Fin 8) (f : Zone → Zone) (s : State) : State := s.setZone z (f (s.zone z))

def State.cover (s : State) (c : Fin 6) : Cover := s.covers[c]

def State.setCover (s : State) (c : Fin 6) (v : Cover) : State := { s with covers := s.covers.set c v }

def State.modCover (c : Fin 6) (f : Cover → Cover) (s : State) : State := s.setCover c (f (s.cover c))

def State.segment (s : State) (g : Fin 4) : Segment := s.segs[g]

def State.setSegment (s : State) (g : Fin 4) (v : Segment) : State := { s with segs := s.segs.set g v }

def State.modSegment (g : Fin 4) (f : Segment → Segment) (s : State) : State := s.setSegment g (f (s.segment g))

def State.bank (s : State) (b : Fin 2) : Bank := s.banks[b]

def State.setBank (s : State) (b : Fin 2) (v : Bank) : State := { s with banks := s.banks.set b v }

def State.supply (s : State) (z : Fin 8) : Option Supply := s.supplies[z]

def State.setSupply (s : State) (z : Fin 8) (v : Option Supply) : State := { s with supplies := s.supplies.set z v }

def State.input (s : State) (i : Fin 8) : InputLine := s.inputs[i]

def State.setInput (s : State) (i : Fin 8) (v : InputLine) : State := { s with inputs := s.inputs.set i v }

def State.loop (s : State) (l : Fin 4) : Loop := s.loops[l]

def State.setLoop (s : State) (l : Fin 4) (v : Loop) : State := { s with loops := s.loops.set l v }

def State.source (s : State) : SourceId → Source
  | .a => s.sourceA
  | .b => s.sourceB

def State.setSource (s : State) (src : SourceId) (v : Source) : State :=
  match src with
  | .a => { s with sourceA := v }
  | .b => { s with sourceB := v }

/-! ### The definitions in force -/

/-- The point definitions among a bank's records, in the order they were accepted. -/
def pointsIn (rs : List Stored) : List PointDef :=
  rs.filterMap fun r => match r.record with
    | .point d => some d
    | _ => none

/-- The definition of an identity. No READY or ACTIVE bank holds two (R10). -/
def pointIn (rs : List Stored) (id : PointId) : Option PointDef := (pointsIn rs).find? (fun d => d.id = id)

/-- The ZONE record of a zone in use (R4). -/
def zoneIn (rs : List Stored) (z : Fin 8) : Option ZoneRec :=
  rs.findSome? fun r => match r.record with
    | .zone q => if q.index = z ∧ q.inUse = true then some q else none
    | _ => none

/-- The COVER record of a cover in use (R4). -/
def coverIn (rs : List Stored) (c : Fin 6) : Option CoverRec :=
  rs.findSome? fun r => match r.record with
    | .cover q => if q.index = c ∧ q.inUse = true then some q else none
    | _ => none

/-- The INPUT record of an input. -/
def inputIn (rs : List Stored) (i : Fin 8) : Option InputRec :=
  rs.findSome? fun r => match r.record with
    | .input q => if q.index = i then some q else none
    | _ => none

/-- The PLANT record. -/
def plantIn (rs : List Stored) : Option PlantRec :=
  rs.findSome? fun r => match r.record with
    | .plant q => some q
    | _ => none

/-- The HALL record. -/
def hallIn (rs : List Stored) : Option HallRec :=
  rs.findSome? fun r => match r.record with
    | .hall q => some q
    | _ => none

/-- The records of the active bank; none in BYPASS. -/
def State.records (s : State) : List Stored :=
  match s.active with
  | some b => (s.bank b).records
  | none => []

def State.points (s : State) : List PointDef := pointsIn s.records

def State.point (s : State) (id : PointId) : Option PointDef := pointIn s.records id

def State.zoneRec (s : State) (z : Fin 8) : Option ZoneRec := zoneIn s.records z

def State.coverRec (s : State) (c : Fin 6) : Option CoverRec := coverIn s.records c

def State.inputRec (s : State) (i : Fin 8) : Option InputRec := inputIn s.records i

/-- The HALL record of the active bank. Every READY bank has one (Table 1-4, check 1), so the blank one is never read
while a job runs. -/
def State.hall (s : State) : HallRec :=
  (hallIn s.records).getD { hold := ⟨1, 1⟩, supplyOff := ⟨1, 1⟩, watch := ⟨1, 1⟩, darkFade := 0 }

/-- The PLANT record of the active bank; every READY bank has one (Table 1-4, check 2). -/
def State.plant (s : State) : PlantRec :=
  (plantIn s.records).getD { order := [0, 1, 2, 3], pairBits := 0, capacity := 0 }

def PointDef.isSensor (d : PointDef) : Bool :=
  match d.role with
  | .sensor _ => true
  | .actuator _ => false

def PointDef.isActuator (d : PointDef) : Bool := !d.isSensor

/-- The actuators of a kind and an owner in a zone, in the order of their definitions (log 18). -/
def State.actuators (s : State) (k : ActKind) (o : Owner) (z : Fin 8) : List PointDef :=
  s.points.filter fun d => d.role = .actuator k ∧ d.owner = some o ∧ d.zone = some z

/-! ### Point Status -/

def statusIn (t : List StatusRow) (id : PointId) : Option PointStatus := (t.find? (fun r => r.id = id)).map (·.st)

/-- The status record of a point, in UNKNOWN form where the table holds none. -/
def State.status (s : State) (id : PointId) : PointStatus := (statusIn s.table id).getD PointStatus.unknown

def State.modStatus (id : PointId) (f : PointStatus → PointStatus) (s : State) : State :=
  { s with table := s.table.map fun r => if r.id = id then { r with st := f r.st } else r }

/-- GOOD or STALE, R82. -/
def Quality.usable : Quality → Bool
  | .good => true
  | .stale => true
  | _ => false

/-- Set a point's resend-wanted flag, R61. An entry queued before a bank switch may name a point that is a sensor now: the
flag is set in its record too, a choice of the model (log 60). -/
def State.wantResend (id : PointId) (s : State) : State := s.modStatus id fun st => { st with resend := true }

/-! ### Interval timers, Chapter 5 -/

/-- A start on an IDLE timer, or a RETRIGGERABLE start (R74, R75). A prescale of 0 is an indefinite hold. -/
def Timer.start (t : Timer) (p : Pair) : Timer :=
  if p.prescale = 0 then { t with running := false, prescaler := 0, count := 0 }
  else { running := true, prescale := p.prescale, setting := p.count, prescaler := p.prescale, count := p.count }

/-- A NON_RETRIGGERABLE start (R75): no effect on a RUNNING timer but for an indefinite hold. -/
def Timer.startOnce (t : Timer) (p : Pair) : Timer := if t.running ∧ p.prescale ≠ 0 then t else t.start p

/-- A stop, R78. -/
def Timer.stop (t : Timer) : Timer :=
  if t.running then { t with running := false, prescaler := 0, count := 0 } else t

/-- The next base tick expires the timer: it is RUNNING with remaining time 1 (R76, R81). -/
def Timer.due (t : Timer) : Bool := t.running ∧ t.prescaler = 1 ∧ t.count = 1

/-- A base tick short of expiry, R76. -/
def Timer.tick (t : Timer) : Timer :=
  if ¬ t.running ∨ t.due then t
  else if t.prescaler ≤ 1 then { t with prescaler := t.prescale, count := t.count - 1 }
  else { t with prescaler := t.prescaler - 1 }

/-- The post-expiry state of a SINGLE timer, R76. -/
def Timer.expireSingle (t : Timer) : Timer := { t with running := false, prescaler := 0, count := 0 }

/-- The post-expiry state of a CONTINUOUS timer, R76. -/
def Timer.expireContinuous (t : Timer) : Timer := { t with prescaler := t.prescale, count := t.setting }

/-- The remaining time in base ticks, R81. -/
def Timer.remaining (t : Timer) : Nat := if t.running then (t.count - 1) * t.prescale + t.prescaler else 0

/-- The travel timer's setting from the travel timeout, Table 5-3: the smallest prescale whose quotient is at most
256. -/
def travelPair (timeout : Nat) : Pair :=
  if timeout ≤ 256 then ⟨1, timeout⟩
  else
    let p := ((List.range 65).find? fun p => 2 ≤ p ∧ timeout / p ≤ 256).getD 64
    ⟨p, timeout / p⟩

/-- The fixed setting of an echo timer, Table 5-3. -/
def echoPair : Pair := ⟨1, 20⟩

/-- The fixed setting of the trunk-silence timer, Table 5-3. -/
def silencePair : Pair := ⟨60, 1⟩

/-! ### Latched conditions, R188 -/

def Latched.put (l : Latched) (c : Condition) (v : Bool) : Latched :=
  match c with
  | .queueOverrun => { l with queueOverrun := v }
  | .condensation => { l with condensation := v }
  | .plantShort => { l with plantShort := v }
  | .coverFault => { l with coverFault := v }
  | .purgeFailed => { l with purgeFailed := v }
  | .loadAbandoned => { l with loadAbandoned := v }
  | .input => { l with input := v }

def Latched.holds (l : Latched) : Condition → Bool
  | .queueOverrun => l.queueOverrun
  | .condensation => l.condensation
  | .plantShort => l.plantShort
  | .coverFault => l.coverFault
  | .purgeFailed => l.purgeFailed
  | .loadAbandoned => l.loadAbandoned
  | .input => l.input

/-- Raise a condition. -/
def State.raise (c : Condition) (s : State) : State := { s with latched := s.latched.put c true }

/-- Clear a condition. -/
def State.lower (c : Condition) (s : State) : State := { s with latched := s.latched.put c false }

/-! ### The Upstream Queue -/

/-- The capacity of the Upstream Queue, R48. -/
def upstreamLimit : Nat := 64

def UpEntry.sampleId : UpEntry → Option PointId
  | .sample id _ _ _ _ => some id
  | _ => none

/-- Remove the oldest SAMPLE entry, answering its identity. -/
def evictSample : List UpEntry → Option (PointId × List UpEntry)
  | [] => none
  | e :: q =>
    match e.sampleId with
    | some id => some (id, q)
    | none => (evictSample q).map fun r => (r.1, e :: r.2)

/-- Mark the point of an evicted SAMPLE forward-missed, when it is a defined sensor of the active bank (R50). -/
def State.markMissed (id : PointId) (s : State) : State :=
  match s.point id with
  | some d => if d.isSensor then s.modStatus id (fun st => { st with missed := true }) else s
  | none => s

/-- Offer a NOTICE or an ECHO: appended, evicting the oldest SAMPLE, or an overrun (R50, R51). -/
def State.offer (e : UpEntry) (s : State) : State :=
  if s.upstream.length < upstreamLimit then { s with upstream := s.upstream ++ [e] }
  else
    match evictSample s.upstream with
    | some r => { s with upstream := r.2 ++ [e] }.markMissed r.1
    | none => { s with overrun := satSucc countLimit s.overrun }.raise .queueOverrun

/-- Make a notice: it takes the notice sequence, which advances, and is offered (R27, R50). -/
def State.notice (k : NoticeKind) (subject : Nat) (first second : Int) (s : State) : State :=
  { s with noticeSeq := s.noticeSeq + 1 }.offer (.notice ⟨k, subject, first, second, s.noticeSeq⟩)

/-- Offer a SAMPLE: coalesced or appended, both forwarded, or discarded (R49). -/
def State.offerSample (id : PointId) (seq : Byte) (value : Int) (status : Byte) (q : QualityByte) (s : State) :
    State × Bool :=
  let e := UpEntry.sample id seq value status q
  if s.upstream.any (fun x => x.sampleId = some id) then
    ({ s with upstream := s.upstream.map fun x => if x.sampleId = some id then e else x }, true)
  else if s.upstream.length < upstreamLimit then ({ s with upstream := s.upstream ++ [e] }, true)
  else (s, false)

/-! ### Held input actions -/

/-- Some latch is set with the action (R176). -/
def State.held (a : Action) (s : State) : Bool := allInputs.any fun i => (s.input i).latch = some a

/-- Some EVACUATE latch is set. -/
def State.evacuating (s : State) : Bool := s.held .evacuate

/-- 0 while any PLANT_TRIP latch is set, and the capacity value otherwise (R116). -/
def State.effectiveCapacity (s : State) : Nat := if s.held .plantTrip then 0 else s.capacity.getD 0

/-! ### Send queues and the admission of job SETs -/

/-- The capacity of a send queue, R38. -/
def sendLimit : Nat := 8

/-- The capacity of the Pending Echo List, R63. -/
def echoLimit : Nat := 32

/-- The segment a field identity lies on. -/
def pointSeg (id : PointId) : Fin 4 := Fin.ofNat 4 id.seg

/-- segment × 512 + node × 16 + channel, R66. -/
def pointIndex (id : PointId) : Nat := id.seg * 512 + id.node * 16 + id.chan

/-- The presence entry of a node. -/
def State.presence (s : State) (g : Fin 4) (node : Nat) : Presence := (s.segment g).nodes[Fin.ofNat 31 node]

def State.nodePresent (s : State) (id : PointId) : Bool := (s.presence (pointSeg id) id.node).state = .present

def queued (q : List SendEntry) (id : PointId) : Bool := q.any fun e => e.point = id

/-- The segment's send queue holds no entry for the point and is full (R57, R60). -/
def State.queueFull (s : State) (id : PointId) : Bool :=
  let q := (s.segment (pointSeg id)).queue
  !queued q id && decide (sendLimit ≤ q.length)

/-- Join at the tail, or replace the point's entry in place (R38). -/
def enqueue (e : SendEntry) (q : List SendEntry) : List SendEntry :=
  if queued q e.point then q.map fun x => if x.point = e.point then e else x else q ++ [e]

/-- The value a SET to the point is placed with: clamped to the envelope for a defined actuator (R58). -/
def State.envelope (s : State) (id : PointId) (value : Int) : Int :=
  match s.point id with
  | some d => if d.isActuator then clampTo d.low d.high value else value
  | none => value

/-- Place a SET in its segment's send queue with its value clamped, counting a clamp that changes it (R58). -/
def State.place (e : SendEntry) (s : State) : State :=
  let v := s.envelope e.point e.value
  let t := { s with clamps := if v = e.value then s.clamps else satSucc countLimit s.clamps }
  t.modSegment (pointSeg e.point) fun g =>
    { g with queue := enqueue { e with value := v, fade := min e.fade 600 } g.queue }

def Role.isLighting : Role → Bool
  | .actuator .lamp => true
  | .actuator .lampSupply => true
  | _ => false

/-- The zone's override is in force for the point (R70): on, allowed by the point, and not suspended by an evacuation
for a LAMP or LAMP_SUPPLY. -/
def State.overrideInForce (s : State) (d : PointDef) : Bool :=
  match d.zone with
  | some z => d.override && (s.zone z).override && !(s.evacuating && d.role.isLighting)
  | none => false

/-- The conditions of R60 that withhold a job SET. -/
def State.withheld (s : State) (d : PointDef) : Bool :=
  s.overrideInForce d || !s.nodePresent d.id || s.queueFull d.id

/-- A job SET: withheld, setting resend-wanted, or placed, clearing it (R60). The Bool says it was placed. A point
without a definition has no owner, so no job submits for it. -/
def State.trySubmit (o : Owner) (id : PointId) (value : Int) (fade : Nat) (s : State) : State × Bool :=
  match s.point id with
  | none => (s, false)
  | some d =>
    if s.withheld d then (s.wantResend id, false)
    else ((s.place ⟨id, value, fade, o, 0⟩).modStatus id (fun st => { st with resend := false }), true)

/-- A job SET whose admission the job does not ask about. -/
def State.submit (o : Owner) (id : PointId) (value : Int) (fade : Nat) (s : State) : State :=
  (s.trySubmit o id value fade).1

end Sys2Proof.Machine
end

