-- ==== Sys2Proof/Machine/Codec.lean ====
section
/-! DEFINITION. The wire: byte order, enumeration codes and the CRC (R191), the frames the part sends (Tables 12-1 and
12-2), the receivers and their checks (R21), and the command a received frame is. -/

namespace Sys2Proof.Machine

/-! ### Numbers, R191: high byte first, two's complement -/

def byteOf (n : Nat) : Byte := BitVec.ofNat 8 n

def u16 (n : Nat) : List Byte := [byteOf (n / 256), byteOf n]

def u32 (n : Nat) : List Byte := [byteOf (n / 16777216), byteOf (n / 65536), byteOf (n / 256), byteOf n]

def s16 (v : Int) : List Byte := u16 (v % 65536).toNat

def s32 (v : Int) : List Byte := u32 (v % 4294967296).toNat

def flagByte (b : Bool) : Byte := if b then 1 else 0

/-- The byte at an offset. -/
def get8 (bs : List Byte) (o : Nat) : Nat := (bs.getD o 0).toNat

def get16 (bs : List Byte) (o : Nat) : Nat := get8 bs o * 256 + get8 bs (o + 1)

def get32 (bs : List Byte) (o : Nat) : Nat := get16 bs o * 65536 + get16 bs (o + 2)

/-- A number read as two's complement of `w` bits. -/
def signed (w n : Nat) : Int := (BitVec.ofNat w n).toInt

def getS16 (bs : List Byte) (o : Nat) : Int := signed 16 (get16 bs o)

def getS32 (bs : List Byte) (o : Nat) : Int := signed 32 (get32 bs o)

/-! ### Enumeration codes, R191: the place in the list that defines the field -/

def RunState.code (x : RunState) : Nat := x.ctorIdx
def BankState.code (x : BankState) : Nat := x.ctorIdx
def Quality.code (x : Quality) : Nat := x.ctorIdx
def ActStatus.code (x : ActStatus) : Nat := x.ctorIdx
def QualityByte.code (x : QualityByte) : Nat := x.ctorIdx
def Mode.code (x : Mode) : Nat := x.ctorIdx
def Quantity.code (x : Quantity) : Nat := x.ctorIdx
def ActKind.code (x : ActKind) : Nat := x.ctorIdx
def Owner.code (x : Owner) : Nat := x.ctorIdx
def Policy.code (x : Policy) : Nat := x.ctorIdx
def LampClass.code (x : LampClass) : Nat := x.ctorIdx
def Action.code (x : Action) : Nat := x.ctorIdx
def Strategy.code (x : Strategy) : Nat := x.ctorIdx
def CoverState.code (x : CoverState) : Nat := x.ctorIdx
def HaltReason.code (x : HaltReason) : Nat := x.ctorIdx
def PurgeState.code (x : PurgeState) : Nat := x.ctorIdx
def SupplyState.code (x : SupplyState) : Nat := x.ctorIdx

/-- HIGH 0, LOW 1, in the order of Table 10-3. -/
def levelCode : Level → Nat
  | .high => 0
  | .low => 1

/-- Notice codes are 1 to 14 in the order of Table 11-5. -/
def NoticeKind.code (x : NoticeKind) : Nat := x.ctorIdx + 1

/-- A value of an enumeration from its code; none when the code names no value. -/
def ofCode {α : Type} (l : List α) (n : Nat) : Option α := l[n]?

def allActStatus : List ActStatus := [.applied, .limited, .localHand, .fault]
def allSensorStatus : List SensorStatus := [.ok, .fault, .calibrating]
def allModes : List Mode := [.openHall, .staffed, .night, .dormant]
def allQuantities : List Quantity :=
  [.airTemp, .airRh, .waterTemp, .surfaceTemp, .outdoorTemp, .outdoorRh, .occupancy, .coverPosition, .generic]
def allActKinds : List ActKind :=
  [.heatValve, .oaDamper, .dehumStage, .supplyFan, .purgeFan, .coverDrive, .lamp, .lampSupply, .generic]
def allOwners : List Owner := [.station, .climate, .cover, .lighting]
def allPolicies : List Policy := [.all, .everyN, .onChange, .none]
def allLampClasses : List LampClass := [.ambient, .underwater, .accent]
def allSenses : List Sense := [.activeHigh, .activeLow]
def allLatchings : List Latching := [.edge, .edgeAndLevel]
def allActions : List Action := [.noticeOnly, .evacuate, .coverStop, .plantTrip, .requestNight, .requestStaffed]

/-- Reply statuses, R24. -/
inductive Status
  | accepted
  | deferred
  | refused
  | forwarded
  | forwardedClamped
  | held
deriving DecidableEq, Repr

def Status.code (x : Status) : Nat := x.ctorIdx

/-- The reasons of Table 12-4, in its order. -/
inductive Reason
  | owned
  | absent
  | queueFull
  | notRunning
  | unknown
  | range
  | kind
  | unknownRequest
  | state
  | busy
  | bankActive
  | bankState
  | sequence
  | badField
  | badTable
  | full
  | count
  | table
  | restarted
  | replaced
  | autonomous
  | mode
  | occupied
  | sensor
  | dark
  | stopped
  | purge
  | covers
  | moving
  | condensation
  | evacuate
  | empty
  | noMark
  | idle
  | loopInUse
  | stillActive
deriving DecidableEq, Repr

/-- Reason codes are 1 to 36 in the order of Table 12-4. -/
def Reason.code (x : Reason) : Nat := x.ctorIdx + 1

/-- What a block answers a station frame: the status, the reason and the body of its REPLY (R24). -/
structure Answer where
  status : Status
  reason : Option Reason
  body : List Byte
deriving DecidableEq, Repr

/-- ACCEPTED with a body. -/
def Answer.ok (body : List Byte) : Answer := ⟨.accepted, none, body⟩

/-- REFUSED with a reason and no body. -/
def Answer.no (r : Reason) : Answer := ⟨.refused, some r, []⟩

/-! ### Frames -/

/-- One bit of the CRC, most significant bit first, polynomial 0x1021 (R191). -/
def crcBit (c : BitVec 16) : BitVec 16 := if c.msb then (c <<< 1) ^^^ 0x1021#16 else c <<< 1

def crcByte (c : BitVec 16) (b : Byte) : BitVec 16 :=
  crcBit (crcBit (crcBit (crcBit (crcBit (crcBit (crcBit (crcBit (c ^^^ (b.zeroExtend 16 <<< 8)))))))))

/-- The CRC-16 with initial value 0xFFFF and no final inversion, R191. -/
def crc16 (bs : List Byte) : BitVec 16 := bs.foldl crcByte 0xFFFF#16

/-- The start byte, Table 2-1. -/
def startByte : Byte := 0xC3

/-- Table 12-1, offset 3. -/
def Frame.segByte (f : Frame) : Byte :=
  byteOf (f.seg.toNat * 16 + (if f.service then 2 else 0) + (if f.more then 1 else 0))

/-- The bytes the CRC covers: 1 to 7 + n of Table 12-1. -/
def Frame.covered (f : Frame) : List Byte :=
  [f.addr, f.kind, f.segByte, f.node, f.chan, f.seq, byteOf f.payload.length] ++ f.payload

/-- The frame on the wire, Table 12-1. -/
def Frame.bytes (f : Frame) : List Byte := startByte :: f.covered ++ u16 (crc16 f.covered).toNat

def kindSample : Byte := 0x11
def kindSet : Byte := 0x22
def kindEcho : Byte := 0x23
def kindHello : Byte := 0x31
def kindPoll : Byte := 0x40
def kindEnd : Byte := 0x41
def kindAdmin : Byte := 0x50
def kindReply : Byte := 0x51
def kindNotice : Byte := 0x60

/-- The header a REPLY copies from a virtual SET's frame. -/
def virtualHdr (node chan : Nat) (seq : Byte) : TrunkHdr := { seg := 7, node := byteOf node, chan := byteOf chan, seq := seq }

/-! ### Reception, R21 -/

/-- Which line a receiver listens on. -/
inductive Line
  | trunk
  | segment
deriving DecidableEq, Repr

/-- The size of a record body by its kind code, Section 12.3; none for a code that names no kind. -/
def recordSize : Nat → Option Nat
  | 0 => some 26
  | 1 => some 35
  | 2 => some 25
  | 3 => some 4
  | 4 => some 7
  | 5 => some 8
  | _ => none

/-- The payload length of an ADMIN frame agrees with its request (Table 12-3, R191). A code that names no request is
judged by the CRC alone; an ADMIN without a request code fails (log 28). -/
def adminFits (p : List Byte) : Bool :=
  if p.length = 0 then false
  else
    let n := p.length - 1
    match get8 p 0 with
    | 0x01 => n == 0
    | 0x02 => decide (1 ≤ n)
    | 0x03 => n == 1
    | 0x04 => n == 2
    | 0x05 => n == 2
    | 0x06 => n == 2
    | 0x07 => n == 1
    | 0x08 => n == 1
    | 0x09 => n == 2
    | 0x0A => n == 0
    | 0x10 => n == 1
    | 0x11 => n == 0
    | 0x12 => n == 1
    | 0x20 => n == 3
    | 0x21 =>
      match recordSize (get8 p 3) with
      | some k => n == 3 + k
      | none => decide (3 ≤ n)
    | 0x22 => n == 0
    | 0x30 => n == 1
    | 0x31 => decide (1 ≤ n) && n == 1 + 2 * get8 p 1
    | 0x32 => decide (3 ≤ n) && n == 3 + 6 * get8 p 3
    | 0x33 => n == 2
    | _ => true

/-- The payload length agrees with Table 12-2 for the line; a kind the line does not take is judged by its CRC alone. -/
def payloadFits (l : Line) (kind : Byte) (p : List Byte) : Bool :=
  match l with
  | .trunk =>
    if kind = kindSet then p.length == 6
    else if kind = kindPoll then p.length == 0
    else if kind = kindAdmin then adminFits p
    else true
  | .segment =>
    if kind = kindSample then p.length == 5
    else if kind = kindEcho then p.length == 5
    else if kind = kindHello then p.length == 2
    else if kind = kindEnd then p.length == 0
    else true

/-- What a receiver has made of the bytes so far. -/
inductive Heard
  | bad
  | frame (f : Frame)
deriving DecidableEq, Repr

/-- A receiver: hunting for a start byte, or with the bytes after the start byte taken so far. -/
inductive Rx
  | hunting
  | taking (got : List Byte)
deriving DecidableEq, Repr

/-- The frame of the bytes from the trunk address to the last payload byte. -/
def frameOf (got : List Byte) : Frame :=
  let b := got.getD 2 0
  { addr := got.getD 0 0, kind := got.getD 1 0, seg := b.extractLsb' 4 4, service := b.getLsb 1, more := b.getLsb 0
    node := got.getD 3 0, chan := got.getD 4 0, seq := got.getD 5 0, payload := got.drop 7 }

/-- Judge a frame whose bytes have all been taken: its CRC and its length (R21). -/
def judge (l : Line) (got : List Byte) : Heard :=
  let covered := got.take (got.length - 2)
  let f := frameOf covered
  if crc16 covered = BitVec.ofNat 16 (get16 got (got.length - 2)) ∧ payloadFits l f.kind f.payload then .frame f else .bad

def hunt (b : Byte) : Rx := if b = startByte then .taking [] else .hunting

/-- A byte reaches a receiver; `late` says that a silence of more than 1 ms came before it (R21). -/
def Rx.feed (l : Line) (rx : Rx) (late : Bool) (b : Byte) : Rx × List Heard :=
  match rx with
  | .hunting => (hunt b, [])
  | .taking got =>
    if late then (hunt b, [.bad])
    else
      let g := got ++ [b]
      if g.length < 7 then (.taking g, [])
      else
        let n := get8 g 6
        if 40 < n then (.hunting, [.bad])
        else if g.length < 9 + n then (.taking g, [])
        else (.hunting, [judge l g])

/-- What a receiver makes of a run of bytes without a silence. -/
def listen (l : Line) (rx : Rx) (bs : List Byte) : Rx × List Heard :=
  bs.foldl (fun r b => let x := r.1.feed l false b; (x.1, r.2 ++ x.2)) (rx, [])

/-! ### The command a frame is -/

/-- One cue step record, Table 12-7. -/
def stepOf (bs : List Byte) (o : Nat) : StepRecord :=
  { scene := get8 bs o, fade := get16 bs (o + 1), prescale := get8 bs (o + 3), count := get8 bs (o + 4) + 1
    marks := bs.getD (o + 5) 0 }

/-- The request of an ADMIN payload, Table 12-3. -/
def adminCommand (h : TrunkHdr) (p : List Byte) : Instr :=
  let b := p.drop 1
  let at8 := fun o => b.getD o 0
  match get8 p 0 with
  | 0x01 => .identify h
  | 0x02 => .loopback h b
  | 0x03 => .readStatus h (at8 0)
  | 0x04 => .readPoint h (at8 0) (at8 1)
  | 0x05 => .readZone h (at8 0) (at8 1)
  | 0x06 => .readCover h (at8 0) (at8 1)
  | 0x07 => .readSource h (at8 0)
  | 0x08 => .readPalette h (at8 0)
  | 0x09 =>
    if at8 0 = 0 then .acknowledgeInput h (at8 1)
    else if at8 0 = 1 then .acknowledgeNode h (at8 1)
    else .acknowledgeCondition h (at8 0) (at8 1)
  | 0x0A => .clear h
  | 0x10 => .go h (at8 0)
  | 0x11 => .halt h
  | 0x12 => .bankSwitch h (at8 0)
  | 0x20 => .loadBegin h (at8 0) (BitVec.ofNat 16 (get16 b 1))
  | 0x21 => .loadRecord h (BitVec.ofNat 16 (get16 b 0)) (at8 2) (b.drop 3)
  | 0x22 => .loadEnd h
  | 0x30 => .palettePointer h (at8 0)
  | 0x31 => .paletteWrite h ((List.range (get8 b 0)).map fun i => (get16 b (1 + 2 * i) : Int))
  | 0x32 => .loopWrite h (at8 0) (at8 1) ((List.range (get8 b 2)).map fun i => stepOf b (3 + 6 * i))
  | 0x33 => .loopLength h (at8 0) (at8 1)
  | _ => .unknownRequest h (p.getD 0 0)

/-- The SET of a segment-7 identity whose function has a command of its own, Table 4-2. -/
def virtualCommand (h : TrunkHdr) (value : Int) (fade : Nat) : Instr :=
  match h.node.toNat, h.chan.toNat with
  | 0, 0 => .modeRequest h.seq value
  | 0, 1 => .plantCapacity h.seq value
  | 0, 2 => .splitPosition h.seq value
  | 0, 3 => .cueSelect .a h.seq value
  | 0, 4 => .cueSelect .b h.seq value
  | 0, 5 => .cueAdvance .a h.seq value
  | 0, 6 => .cueAdvance .b h.seq value
  | 1, c =>
    if c < 6 ∧ value = 0 then .coverStop (Fin.ofNat 6 c) h.seq
    else if c < 6 ∧ value = 1 then .coverClose (Fin.ofNat 6 c) h.seq
    else if c < 6 ∧ value = 2 then .coverOpen (Fin.ofNat 6 c) h.seq
    else if c < 6 ∧ value = 3 then .resetFault (Fin.ofNat 6 c) h.seq
    else .stationSet h value fade
  | 2, z => if z < 8 then .zoneOverride (Fin.ofNat 8 z) h.seq value else .stationSet h value fade
  | 3, z => if z < 8 then .zoneTrim (Fin.ofNat 8 z) h.seq value else .stationSet h value fade
  | _, _ => .stationSet h value fade

/-- The command a trunk reception is, at the trunk address `addr` (R21, R23, R25). -/
def trunkCommand (addr : Byte) : Heard → Instr
  | .bad => .badTrunkFrame
  | .frame f =>
    let h : TrunkHdr := { seg := f.seg, node := f.node, chan := f.chan, seq := f.seq }
    if f.addr ≠ addr then .foreignTrunkFrame
    else if f.kind = kindPoll then .poll h
    else if f.kind = kindSet then
      let value := getS32 f.payload 0
      let fade := get16 f.payload 4
      if f.seg = 7 then virtualCommand h value fade else .stationSet h value fade
    else if f.kind = kindAdmin then adminCommand h f.payload
    else .trunkFrameOtherKind h f.kind

/-- The command a segment reception is; a kind that no answer may hold is a bad frame (R30). -/
def segmentCommand (seg : Fin 4) : Heard → Instr
  | .bad => .badSegmentFrame seg
  | .frame f =>
    if f.kind = kindSample then .sample seg f.node f.chan f.seq (getS32 f.payload 0) (f.payload.getD 4 0)
    else if f.kind = kindEcho then .echo seg f.node f.chan f.seq (getS32 f.payload 0) (f.payload.getD 4 0)
    else if f.kind = kindHello then .hello seg f.node (f.payload.getD 0 0) (f.payload.getD 1 0)
    else if f.kind = kindEnd then .endFrame seg f.node
    else .badSegmentFrame seg

end Sys2Proof.Machine
end

