-- ==== Sys2Proof/Machine/Operands.lean ====
section
/-! DEFINITION. The operands of the commands: the body of a LOAD_RECORD with the single-record checks (R1 to R3, R193),
the virtual functions with their values (R71, R72), and the values of R3's job records. -/

namespace Sys2Proof.Machine

/-! ### Field checks -/

/-- The offset of the first field, in the order given, whose check fails. -/
def firstFail : List (Bool × Nat) → Option Nat
  | [] => none
  | (ok, o) :: rest => if ok then firstFail rest else some o

def inRange (lo hi n : Nat) : Bool := decide (lo ≤ n ∧ n ≤ hi)

def inRangeZ (lo hi n : Int) : Bool := decide (lo ≤ n ∧ n ≤ hi)

def pointAt (bs : List Byte) (o : Nat) : PointId := ⟨get8 bs o, get8 bs (o + 1), get8 bs (o + 2)⟩

/-- A field identity: segment 0..3, node 0..30, channel 0..15. -/
def isField (id : PointId) : Bool := inRange 0 3 id.seg && inRange 0 30 id.node && inRange 0 15 id.chan

/-- A time pair, R193. -/
def pairAt (bs : List Byte) (o : Nat) : Pair := ⟨get8 bs o, get8 bs (o + 1) + 1⟩

/-- The prescale of a time pair lies in 1..64; its count, stored less one in a byte, always lies in 1..256. -/
def pairOk (p : Pair) : Bool := inRange 1 64 p.prescale

/-- The two numbers of a packed pair, R193. -/
def packed1 (bs : List Byte) (o : Nat) : Nat := get8 bs o * 16 + get8 bs (o + 1) / 16

def packed2 (bs : List Byte) (o : Nat) : Nat := get8 bs (o + 1) % 16 * 256 + get8 bs (o + 2)

/-! ### POINT, Tables 1-1 and 12-5 -/

/-- R1, in layout order. An envelope low above the high names the later field (log 24). -/
def pointRangeFail (bs : List Byte) : Option Nat :=
  let role := get8 bs 4
  let actuator := get8 bs 3 = 1
  let lamp := actuator ∧ role = ActKind.lamp.code
  let covered := (actuator ∧ (role = ActKind.coverDrive.code ∨ role = ActKind.purgeFan.code)) ∨
    (¬ actuator ∧ role = Quantity.coverPosition.code)
  firstFail
    [ (isField (pointAt bs 0), 0), (inRange 0 1 (get8 bs 3), 3), (inRange 0 8 role, 4),
      (inRange 0 7 (get8 bs 5) || get8 bs 5 == 255, 5), (inRange 0 3 (get8 bs 6) || get8 bs 6 == 255, 6),
      (decide (getS32 bs 7 ≤ getS32 bs 11), 11), (inRange 0 3 (get8 bs 15), 15),
      ((get8 bs 15 != Policy.everyN.code || inRange 2 64 (get16 bs 16)) &&
        (get8 bs 15 != Policy.onChange.code || inRange 1 65535 (get16 bs 16)), 16),
      (inRange 1 3600 (get16 bs 18), 18), (inRange 0 1 (get8 bs 20), 20),
      (decide (¬ lamp) || inRange 0 95 (get8 bs 21), 21), (decide (¬ lamp) || inRange 0 2 (get8 bs 22), 22),
      (decide (¬ lamp) || inRange 1 2000 (get16 bs 23), 23),
      (decide (¬ covered) || inRange 0 5 (get8 bs 25), 25) ]

/-- The record's fields, the ignored ones as 0 (R2). Read only when R1 holds. -/
def pointDefOf (bs : List Byte) : PointDef :=
  let actuator := get8 bs 3 = 1
  let role : Role :=
    if actuator then .actuator ((ofCode allActKinds (get8 bs 4)).getD .generic)
    else .sensor ((ofCode allQuantities (get8 bs 4)).getD .generic)
  let policy := (ofCode allPolicies (get8 bs 15)).getD .none
  let lamp := role = .actuator .lamp
  let covered := role = .actuator .coverDrive ∨ role = .actuator .purgeFan ∨ role = .sensor .coverPosition
  { id := pointAt bs 0
    role := role
    zone := if get8 bs 5 < 8 then some (Fin.ofNat 8 (get8 bs 5)) else none
    owner := ofCode allOwners (get8 bs 6)
    low := getS32 bs 7
    high := getS32 bs 11
    policy := policy
    n := if policy = .everyN then get16 bs 16 else 0
    delta := if policy = .onChange then get16 bs 16 else 0
    stale := get16 bs 18
    override := get8 bs 20 = 1
    strip := if lamp then get8 bs 21 else 0
    lampClass := if lamp then (ofCode allLampClasses (get8 bs 22)).getD .ambient else .ambient
    watts := if lamp then get16 bs 23 else 0
    coverNo := if covered then get8 bs 25 else 0 }

/-- The owners a kind takes, R2. -/
def ownerFits : ActKind → Owner → Bool
  | .heatValve, o | .oaDamper, o | .dehumStage, o | .supplyFan, o => o == .climate || o == .station
  | .coverDrive, o | .purgeFan, o => o == .cover
  | .lamp, o | .lampSupply, o => o == .lighting || o == .station
  | .generic, o => o == .station

/-- R2: the disagreements of zone (offset 5), owner (6), policy (15) and override (20) with an earlier field. -/
def pointAgreeFail (d : PointDef) : Option Nat :=
  match d.role with
  | .sensor q =>
    let zoneOk :=
      if q = .outdoorTemp ∨ q = .outdoorRh then d.zone.isNone
      else if q = .generic then true else d.zone.isSome
    firstFail [(zoneOk, 5), (d.owner.isNone, 6), (!d.override, 20)]
  | .actuator k =>
    firstFail
      [ (k == .generic || d.zone.isSome, 5),
        (match d.owner with
          | some o => ownerFits k o
          | none => false, 6),
        (d.policy == .none, 15), (k != .coverDrive || !d.override, 20) ]

/-! ### The job records, Tables 1-2, 12-6 and 12-7 -/

def zoneRecOf (bs : List Byte) : ZoneRec :=
  { index := Fin.ofNat 8 (get8 bs 0), inUse := decide (128 ≤ get8 bs 0), period := get8 bs 1, lampGain := get8 bs 2
    waterOffset := get16 bs 3, setback := get16 bs 5, dewLimit := getS16 bs 7, marginTarget := get16 bs 9
    weight := get16 bs 11, credit := get16 bs 13, approach := get16 bs 15, occupiedOa := get16 bs 17
    dehumFan := get16 bs 19, fallback := get16 bs 21, setMin := packed1 bs 23, setMax := packed2 bs 23
    heatBand := packed1 bs 26, dehumBand := packed2 bs 26, hpOn := packed1 bs 29, hpOff := packed2 bs 29
    dayFan := packed1 bs 32, nightFan := packed2 bs 32 }

/-- R3 for a ZONE record in use, in layout order; the second number of a packed pair begins in its second byte
(log 24). -/
def zoneRecFail (r : ZoneRec) : Option Nat :=
  if !r.inUse then none
  else
    firstFail
      [ (inRange 2 60 r.period, 1), (inRange 0 100 r.lampGain, 2), (inRange 0 400 r.waterOffset, 3),
        (inRange 0 500 r.setback, 5), (inRangeZ (-2000) 6000 r.dewLimit, 7), (inRange 0 500 r.marginTarget, 9),
        (inRange 0 4000 r.weight, 11), (inRange 0 4000 r.credit, 13), (inRange 0 2000 r.approach, 15),
        (inRange 0 1000 r.occupiedOa, 17), (inRange 0 1000 r.dehumFan, 19), (inRange 0 1000 r.fallback, 21),
        (inRange 1500 4000 r.setMin, 23), (inRange 1500 4000 r.setMax, 24), (inRange 50 2000 r.heatBand, 26),
        (inRange 50 2000 r.dehumBand, 27), (inRange 0 1000 r.hpOn, 29), (inRange 0 1000 r.hpOff, 30),
        (inRange 0 1000 r.dayFan, 32), (inRange 0 1000 r.nightFan, 33) ]

def coverRecOf (bs : List Byte) : CoverRec :=
  { index := Fin.ofNat 6 (get8 bs 0 % 8), inUse := decide (128 ≤ get8 bs 0), zone := get8 bs 1, drive := pointAt bs 2
    position := pointAt bs 5, fan := pointAt bs 8, travel := get16 bs 11, interval := pairAt bs 13
    duration := pairAt bs 15, validity := pairAt bs 17, workLight := get16 bs 19, oaFloor := get16 bs 21
    fanFloor := get16 bs 23 }

/-- R3 for a COVER record: the index, and the fields when it is in use. -/
def coverRecFail (bs : List Byte) : Option Nat :=
  let r := coverRecOf bs
  if 6 ≤ get8 bs 0 % 8 then some 0
  else if !r.inUse then none
  else
    firstFail
      [ (inRange 0 7 r.zone, 1), (isField r.drive, 2), (isField r.position, 5), (isField r.fan, 8),
        (inRange 10 3600 r.travel, 11), (pairOk r.interval, 13), (pairOk r.duration, 15), (pairOk r.validity, 17),
        (inRange 0 1000 r.workLight, 19), (inRange 0 1000 r.oaFloor, 21), (inRange 0 1000 r.fanFloor, 23) ]

def inputRecOf (bs : List Byte) : InputRec :=
  { index := Fin.ofNat 8 (get8 bs 0), enabled := decide (128 ≤ get8 bs 0)
    sense := (ofCode allSenses (get8 bs 1)).getD .activeHigh
    latching := (ofCode allLatchings (get8 bs 2)).getD .edge
    action := (ofCode allActions (get8 bs 3)).getD .noticeOnly }

def inputRecFail (bs : List Byte) : Option Nat :=
  firstFail [(inRange 0 1 (get8 bs 1), 1), (inRange 0 1 (get8 bs 2), 2), (inRange 0 5 (get8 bs 3), 3)]

def plantRecOf (bs : List Byte) : PlantRec :=
  { order := [get8 bs 0, get8 bs 1, get8 bs 2, get8 bs 3], pairBits := (bs.getD 4 0).truncate 4
    capacity := get16 bs 5 }

def plantRecFail (r : PlantRec) : Option Nat :=
  firstFail
    [ (inRange 0 3 (r.order.getD 0 0), 0), (inRange 0 3 (r.order.getD 1 0), 1), (inRange 0 3 (r.order.getD 2 0), 2),
      (inRange 0 3 (r.order.getD 3 0), 3), (inRange 0 4000 r.capacity, 5) ]

def hallRecOf (bs : List Byte) : HallRec :=
  { hold := pairAt bs 0, supplyOff := pairAt bs 2, watch := pairAt bs 4, darkFade := get16 bs 6 }

def hallRecFail (r : HallRec) : Option Nat :=
  firstFail [(pairOk r.hold, 0), (pairOk r.supplyOff, 2), (pairOk r.watch, 4), (inRange 0 600 r.darkFade, 6)]

/-- The record when no check failed, and otherwise the offset that failed. -/
def checked (fail : Option Nat) (r : Record) : Except Nat Record :=
  match fail with
  | some o => .error o
  | none => .ok r

/-- A record body under its kind code: the record, or the offset of its first failing field (R1 to R3, R193). A kind that
names no kind is answered by LOAD_RECORD before the body is looked at. -/
def decodeRecord (kind : Nat) (bs : List Byte) : Except Nat Record :=
  match kind with
  | 0 =>
    let d := pointDefOf bs
    checked ((pointRangeFail bs).or (pointAgreeFail d)) (.point d)
  | 1 => checked (zoneRecFail (zoneRecOf bs)) (.zone (zoneRecOf bs))
  | 2 => checked (coverRecFail bs) (.cover (coverRecOf bs))
  | 3 => checked (inputRecFail bs) (.input (inputRecOf bs))
  | 4 => checked (plantRecFail (plantRecOf bs)) (.plant (plantRecOf bs))
  | 5 => checked (hallRecFail (hallRecOf bs)) (.hall (hallRecOf bs))
  | _ => .error 0

/-! ### Virtual functions, Table 4-2 -/

/-- The functions of segment 7. -/
inductive VFun
  | mode
  | capacity
  | split
  | cueSelect (src : SourceId)
  | cueAdvance (src : SourceId)
  | cover (c : Fin 6)
  | override (z : Fin 8)
  | trim (z : Fin 8)
deriving DecidableEq, Repr

/-- The function of a (node, channel) pair, R71 check 2. -/
def vfun (node chan : Nat) : Option VFun :=
  match node, chan with
  | 0, 0 => some .mode
  | 0, 1 => some .capacity
  | 0, 2 => some .split
  | 0, 3 => some (.cueSelect .a)
  | 0, 4 => some (.cueSelect .b)
  | 0, 5 => some (.cueAdvance .a)
  | 0, 6 => some (.cueAdvance .b)
  | 1, c => if c < 6 then some (.cover (Fin.ofNat 6 c)) else none
  | 2, z => if z < 8 then some (.override (Fin.ofNat 8 z)) else none
  | 3, z => if z < 8 then some (.trim (Fin.ofNat 8 z)) else none
  | _, _ => none

/-- The channel of a source's CUE_SELECT and CUE_ADVANCE, Table 4-2. -/
def cueChannel (base : Nat) : SourceId → Nat
  | .a => base
  | .b => base + 1

/-- The value a function takes: none when an enumerated value names none of its values (R71 check 3), and a numeric
value clamped to its range (check 4). -/
def vvalue (f : VFun) (v : Int) : Option Int :=
  match f with
  | .mode => if 0 ≤ v ∧ v ≤ 3 then some v else none
  | .capacity => some (clampTo 0 4000 v)
  | .split => some (clampTo 0 96 v)
  | .cueSelect _ => if (0 ≤ v ∧ v ≤ 3) ∨ v = 255 then some v else none
  | .cueAdvance _ => if (1 ≤ v ∧ v ≤ 63) ∨ (101 ≤ v ∧ v ≤ 108) then some v else none
  | .cover _ => if 0 ≤ v ∧ v ≤ 3 then some v else none
  | .override _ => if 0 ≤ v ∧ v ≤ 1 then some v else none
  | .trim _ => some (clampTo (-200) 200 v)

end Sys2Proof.Machine
end

