-- ==== Sys2Proof/Machine/Flags.lean ====
section
/-! DEFINITION. The indicators the station sees in every REPLY: the attention code (R184), the depth with its SERVICE and
MORE flags (R24, R26, R52), and the latched-condition byte (R192). -/

namespace Sys2Proof.Machine

/-- Some condition is latched. -/
def Latched.any (l : Latched) : Bool :=
  l.queueOverrun || l.condensation || l.plantShort || l.coverFault || l.purgeFailed || l.loadAbandoned || l.input

/-- Bits 0 to 6 in the order of Table 11-4. -/
def Latched.byte (l : Latched) : Byte :=
  byteOf ((if l.queueOverrun then 1 else 0) + (if l.condensation then 2 else 0) + (if l.plantShort then 4 else 0) +
    (if l.coverFault then 8 else 0) + (if l.purgeFailed then 16 else 0) + (if l.loadAbandoned then 32 else 0) +
    (if l.input then 64 else 0))

/-- The attention code, R184: the first of the list that applies. -/
def State.attention (s : State) : Nat :=
  if s.protocolError then 3
  else if s.latched.any then 2
  else if s.upstream ≠ [] then 1
  else 0

/-- The depth of the Upstream Queue, R52. -/
def State.depth (s : State) : Nat := s.upstream.length

/-- SERVICE is set from 32 entries, R24. -/
def State.service (s : State) : Bool := decide (32 ≤ s.depth)

/-- The REPLY to a station frame: the common fields of R24, the header of R22 and R25, and MORE in a REPLY to POLL
(R26). -/
def State.replyFrame (s : State) (h : TrunkHdr) (more : Bool) (a : Answer) : Frame :=
  { addr := s.trunkAddr, kind := kindReply, seg := h.seg, service := s.service, more := more, node := h.node
    chan := h.chan, seq := h.seq
    payload :=
      [byteOf a.status.code, byteOf ((a.reason.map Reason.code).getD 0), byteOf s.attention, byteOf s.depth] ++ a.body }

/-- The frame an Upstream Queue entry is sent as, R22 and R27. -/
def State.entryFrame (s : State) (e : UpEntry) : Frame :=
  match e with
  | .sample id seq value status q =>
    { addr := s.trunkAddr, kind := kindSample, seg := BitVec.ofNat 4 id.seg, service := false, more := false
      node := byteOf id.node, chan := byteOf id.chan, seq := seq
      payload := s32 value ++ [status, byteOf q.code] }
  | .echo id seq value status =>
    { addr := s.trunkAddr, kind := kindEcho, seg := BitVec.ofNat 4 id.seg, service := false, more := false
      node := byteOf id.node, chan := byteOf id.chan, seq := seq, payload := s32 value ++ [status] }
  | .notice n =>
    { addr := s.trunkAddr, kind := kindNotice, seg := 0, service := false, more := false, node := 0, chan := 0
      seq := n.seq
      payload := byteOf n.kind.code :: u16 n.subject ++ s32 n.first ++ s32 n.second }

end Sys2Proof.Machine
end

