-- ==== Sys2Proof/Config.lean ====
section
/-! DEFINITION. What the silicon fixes (R185) and the free values: the values the spec leaves unstated. -/

namespace Sys2Proof.Config

/-- The family code IDENTIFY returns, R185. -/
def familyCode : Nat := 0x49

/-- The part number IDENTIFY returns, R185. -/
def partNumber : Nat := 612

/-- The silicon revision IDENTIFY returns, R185. -/
def revision : Nat := 1

/-- A reply byte the spec does not state: the failing offset of a LOAD_RECORD whose kind names no kind (R8), and the
cover state in the REPLY to a COVER_COMMAND for a cover that has no cover machine (R121). Read at the counter
`freeCount` of State, so each use is a fresh unknown. DESIGN CHOICE, safe: nothing constrains it (log 25). -/
opaque freeByte : Nat → Byte

end Sys2Proof.Config
end

