-- ==== Sys2Proof/Machine/Lamps.lean ====
section
/-! DEFINITION. The strip and what the Lighting Sequencer publishes from its lamp records: expected levels, zone lamp
loads, zone work levels and demands (Sections 9.2 and 9.8, R149, R156). -/

namespace Sys2Proof.Machine

/-- A lamp of the strip: a LIGHTING-owned LAMP (R144). -/
def PointDef.onStrip (d : PointDef) : Bool := decide (d.role = .actuator .lamp ∧ d.owner = some .lighting)

/-- The lamps of a bank's strip in ascending position (R144). -/
def stripOf (rs : List Stored) : List PointDef :=
  (List.range 96).filterMap fun p => (pointsIn rs).find? fun d => d.onStrip && d.strip == p

/-- The expected level, R149. With F = 0 it is the target, also of a deferred lamp, whose level R149 would leave at its start
(log 46). -/
def Lamp.expected (l : Lamp) : Int :=
  if l.fade = 0 then l.target else l.start + ((l.target - l.start) * l.elapsed).tdiv l.fade

/-- The lamps of a zone with their definitions (R144). -/
def State.zoneLamps (s : State) (z : Fin 8) : List (PointDef × Lamp) :=
  s.lamps.filterMap fun r =>
    match s.point r.id with
    | some d => if d.zone = some z then some (d, r.lamp) else none
    | none => none

/-- The lamp record of a point. -/
def State.lamp (s : State) (id : PointId) : Option Lamp := (s.lamps.find? fun r => r.id = id).map (·.lamp)

def State.modLamp (id : PointId) (f : Lamp → Lamp) (s : State) : State :=
  { s with lamps := s.lamps.map fun r => if r.id = id then { r with lamp := f r.lamp } else r }

/-- The zone's demand is non-zero: some lamp of the zone has a non-zero target (R156). -/
def State.demand (s : State) (z : Fin 8) : Bool := (s.zoneLamps z).any fun p => p.2.target != 0

/-- The zone lamp load in watts, R161. -/
def State.lampLoad (s : State) (z : Fin 8) : Int :=
  ((s.zoneLamps z).map fun p => p.2.expected * (p.1.watts : Int)).sum.tdiv 1000

/-- The supply points of a zone in a bank (R156), in the order of their definitions (log 18). -/
def supplyPointsIn (rs : List Stored) (z : Fin 8) : List PointId :=
  ((pointsIn rs).filter fun d => d.role = .actuator .lampSupply ∧ d.owner = some .lighting ∧ d.zone = some z).map (·.id)

def State.supplyPoints (s : State) (z : Fin 8) : List PointId := supplyPointsIn s.records z

/-- The zone's supply counts as ON: its machine is ON, or it has none (R156, R162). -/
def State.supplyOn (s : State) (z : Fin 8) : Bool :=
  match s.supply z with
  | some m => decide (m.state = .on)
  | none => true

/-- The zone's supply machine is POWERING, so its lamps' SETs are deferred (R148). -/
def State.powering (s : State) (z : Fin 8) : Bool :=
  match s.supply z with
  | some m => decide (m.state = .powering)
  | none => false

/-- The least of a list, 1000 for the empty list. -/
def leastLevel : List Int → Int
  | [] => 1000
  | x :: xs => xs.foldl min x

/-- The zone work level, R162. -/
def State.workLevel (s : State) (z : Fin 8) : Int :=
  let ambient := (s.zoneLamps z).filter fun p => p.1.lampClass = .ambient
  if ambient = [] then 1000
  else if !s.supplyOn z then 0
  else leastLevel (ambient.map fun p => min p.2.expected p.2.target)

end Sys2Proof.Machine
end

