-- ==== Sys2Proof/Machine/Covers.lean ====
section
/-! DEFINITION. The Cover Controller, Chapter 8: motion, halts, the purge machine, floors, output opportunities,
derivations and the cover commands. -/

namespace Sys2Proof.Machine

/-- The events of a COVER_EVENT, in the order of Table 11-5. -/
inductive CoverEvent
  | closed
  | opened
  | haltedCommand
  | haltedSensor
  | haltedOccupied
  | haltedDark
  | haltedStopped
  | fault
  | openAbandoned
deriving DecidableEq, Repr

/-- COVER_EVENT events are 0 to 8 (R191). -/
def CoverEvent.code (e : CoverEvent) : Nat := e.ctorIdx

/-- CLOSING or OPENING, R120. -/
def Cover.moving (v : Cover) : Bool := decide (v.state = .closing ∨ v.state = .opening)

/-- The purge machine is RUNNING. -/
def Cover.purging (v : Cover) : Bool := decide (v.purge = .running)

/-- The current output for the drive, R136. -/
def Cover.driveOutput (v : Cover) : Int :=
  match v.state with
  | .closing => 1
  | .opening => 2
  | _ => 0

/-- The current output for the purge fan, R136. -/
def Cover.fanOutput (v : Cover) : Int := if v.purging then 1 else 0

/-- The open command may not be submitted again: OPENING with VALID clear (R136). -/
def Cover.openBarred (v : Cover) : Bool := decide (v.state = .opening) && !v.valid

/-- The position point's status record. -/
def State.positionOf (s : State) (r : CoverRec) : PointStatus := s.status r.position

/-- A cover's zone number as a zone. -/
def CoverRec.zoneNo (r : CoverRec) : Fin 8 := Fin.ofNat 8 r.zone

def State.coverEvent (c : Fin 6) (r : CoverRec) (e : CoverEvent) (s : State) : State :=
  s.notice .coverEvent c.val e.code (s.positionOf r).value

/-! ### Output opportunities, R137 -/

/-- Submit the drive's current output, but for the last sentence of R136. -/
def State.sendDrive (c : Fin 6) (r : CoverRec) (s : State) : State :=
  if (s.cover c).openBarred then s else s.submit .cover r.drive (s.cover c).driveOutput 0

def State.sendFan (c : Fin 6) (r : CoverRec) (s : State) : State := s.submit .cover r.fan (s.cover c).fanOutput 0

/-- An output opportunity of a cover, R137; the drive before the fan, an order the spec does not give (log 45). -/
def State.coverOpportunity (c : Fin 6) (r : CoverRec) (s : State) : State :=
  let t := if (s.status r.drive).resend then s.sendDrive c r else s
  if (t.status r.fan).resend then t.sendFan c r else t

/-! ### Floors, R135 -/

/-- The largest of a floor among the in-use covers of a zone whose purge runs. -/
def State.floorOf (s : State) (z : Fin 8) (f : CoverRec → Nat) : Nat :=
  allCovers.foldl (fun m c =>
    match s.coverRec c with
    | some r => if r.zone = z.val ∧ (s.cover c).purging ∧ (s.zoneRec z).isSome then max m (f r) else m
    | none => m) 0

/-- Form a zone's purge floors afresh. -/
def State.formFloors (z : Fin 8) (s : State) : State :=
  s.modZone z fun v => { v with oaFloor := s.floorOf z (·.oaFloor), fanFloor := s.floorOf z (·.fanFloor) }

/-! ### Motion -/

/-- The start of a close, R126. -/
def State.startClose (c : Fin 6) (r : CoverRec) (s : State) : State :=
  let t := (s.submit .cover r.drive 1 0).modCover c fun v =>
    { v with travel := v.travel.start (travelPair r.travel), state := .closing, haltReason := none
             derivePending := false }
  t.coverOpportunity c r

/-- The start of an opening, R126. -/
def State.startOpen (c : Fin 6) (r : CoverRec) (s : State) : State :=
  let t := (s.submit .cover r.drive 2 0).modCover c fun v =>
    { v with travel := v.travel.start (travelPair r.travel), state := .opening, haltReason := none
             derivePending := false, purge := .idle, interval := v.interval.stop, duration := v.duration.stop
             validity := v.validity.stop, openPending := false }
  (t.formFloors r.zoneNo).coverOpportunity c r

/-- A halt, R128. -/
def State.haltCover (c : Fin 6) (r : CoverRec) (why : HaltReason) (e : CoverEvent) (s : State) : State :=
  let t := (s.modCover c fun v => { v with travel := v.travel.stop }).submit .cover r.drive 0 0
  let u := t.modCover c fun v => { v with state := .halted, haltReason := some why }
  (u.coverEvent c r e).coverOpportunity c r

/-- A halt where the cover is in use and in one of the states the cause applies in. -/
def State.haltIf (c : Fin 6) (applies : CoverRec → Cover → Bool) (why : HaltReason) (e : CoverEvent) (s : State) : State :=
  match s.coverRec c with
  | some r => if applies r (s.cover c) then s.haltCover c r why e else s
  | none => s

/-- A COVER_STOP or EVACUATE latch set: every moving cover halts, in ascending number (R128). -/
def State.stopCovers (s : State) : State :=
  forEach allCovers (fun c => State.haltIf c (fun _ v => v.moving) .stopped .haltedStopped) s

/-- The zone's occupied flag delivered as set (R128), to its covers in ascending number (log 40). -/
def State.occupiedCovers (z : Fin 8) (s : State) : State :=
  forEach allCovers
    (fun c => State.haltIf c (fun r v => decide (r.zone = z.val ∧ v.state = .closing)) .occupied .haltedOccupied) s

/-- A lamp retarget in a zone: each moving cover, in ascending number (log 40), reads the work level (R128). -/
def State.darkCovers (z : Fin 8) (s : State) : State :=
  forEach allCovers (fun c t =>
    t.haltIf c (fun r v => decide (r.zone = z.val) && v.moving && decide (t.workLevel z < r.workLight)) .dark
      .haltedDark) s

/-- The cover becomes CLOSED with its purge machine WAITING, its interval timer started and VALID clear (R127, R139). -/
def Cover.becomeClosed (v : Cover) (r : CoverRec) : Cover :=
  { v with state := .closed, haltReason := none, derivePending := false, valid := false, validity := v.validity.stop
           purge := .waiting, interval := v.interval.start r.interval }

/-- A position delivery, R127: `sample` carries the judged value of a sample delivery. Its output opportunity (R137) is taken
after the handling of R127, an order the spec does not give (log 63). -/
def State.positionTo (c : Fin 6) (r : CoverRec) (after : Quality) (sample : Option Int) (s : State) : State :=
  let v := s.cover c
  let arrived := fun (p : Int → Bool) => decide (after = .good) && (sample.map p).getD false
  let ailing := decide (after = .stale ∨ after = .lost ∨ after = .suspect)
  let t :=
    if decide (v.state = .closing) && arrived (fun p => decide (990 ≤ p)) then
      let u := (s.modCover c fun v => { v with travel := v.travel.stop }).submit .cover r.drive 0 0
      (u.modCover c fun v => v.becomeClosed r).coverEvent c r .closed
    else if decide (v.state = .opening) && arrived (fun p => decide (p ≤ 10)) then
      let u := (s.modCover c fun v => { v with travel := v.travel.stop }).submit .cover r.drive 0 0
      (u.modCover c fun v => { v with state := .opened }).coverEvent c r .opened
    else if v.moving && ailing then s.haltCover c r .sensor .haltedSensor
    else if decide (v.state = .halted) && v.derivePending && arrived (fun _ => true) then
      if arrived (fun p => decide (990 ≤ p)) then
        (s.modCover c fun v => v.becomeClosed r).coverEvent c r .closed
      else if arrived (fun p => decide (p ≤ 10)) then
        (s.modCover c fun v => { v with state := .opened, haltReason := none, derivePending := false }).coverEvent c r
          .opened
      else s.modCover c fun v => { v with haltReason := some .derived, derivePending := false }
    else s
  t.coverOpportunity c r

/-- The in-use cover whose COVER record names the point as its position point, R54. -/
def State.coverAtPosition (s : State) (id : PointId) : Option (Fin 6 × CoverRec) :=
  allCovers.findSome? fun c =>
    match s.coverRec c with
    | some r => if r.position = id then some (c, r) else none
    | none => none

/-- Deliver a position event of a point, R54. -/
def State.deliverPosition (id : PointId) (after : Quality) (sample : Option Int) (s : State) : State :=
  match s.coverAtPosition id with
  | some (c, r) => s.positionTo c r after sample
  | none => s

/-! ### The purge machine -/

/-- The start of a purge run, R131. -/
def State.startPurge (c : Fin 6) (r : CoverRec) (s : State) : State :=
  let t := (s.submit .cover r.fan 1 0).modCover c fun v =>
    { v with valid := false, runFailed := false, confirmed := false, validity := v.validity.stop
             duration := v.duration.start r.duration, purge := .running }
  (t.formFloors r.zoneNo).coverOpportunity c r

/-- The purge machine returns to WAITING with its interval timer started. -/
def State.waitPurge (c : Fin 6) (r : CoverRec) (s : State) : State :=
  s.modCover c fun v => { v with purge := .waiting, interval := v.interval.start r.interval }

/-- The hall mode is STAFFED or NIGHT (R121). -/
def State.coverMode (s : State) : Bool := decide (s.mode = some .staffed ∨ s.mode = some .night)

/-- No COVER_STOP and no EVACUATE latch is set (R121). -/
def State.stopClear (s : State) : Bool := !s.held .coverStop && !s.held .evacuate

/-- The interlocks of R121 in their order; the occupancy interlock applies to CLOSE only. -/
def State.interlock (r : CoverRec) (closing : Bool) (s : State) : Option Reason :=
  if !s.coverMode then some .mode
  else if closing && (s.zone r.zoneNo).occupied then some .occupied
  else if (s.positionOf r).quality ≠ .good then some .sensor
  else if s.workLevel r.zoneNo < r.workLight then some .dark
  else if !s.stopClear then some .stopped
  else none

/-- The purge cause of a failure, R133; none for a success. -/
def State.purgeFailure (c : Fin 6) (r : CoverRec) (s : State) : Option Nat :=
  if (s.cover c).runFailed then some 1
  else if !(s.cover c).confirmed then some 2
  else if (s.status r.fan).quality = .lost then some 3
  else none

/-- The end of a purge run at the expiry of its duration timer, R133. -/
def State.endPurge (c : Fin 6) (r : CoverRec) (s : State) : State :=
  let pending := (s.cover c).openPending
  let s1 := s.submit .cover r.fan 0 0
  let failure := s1.purgeFailure c r
  let s2 := (s1.modCover c fun v => { v with purge := .waiting, openPending := false }).formFloors r.zoneNo
  match failure with
  | none =>
    let s3 := s2.modCover c fun v => { v with valid := true, validity := v.validity.start r.validity }
    let s4 := s3.notice .purgeDone c.val ((r.validity.prescale * r.validity.count : Nat) : Int) 0
    if pending then
      if (s4.interlock r false).isNone then s4.startOpen c r
      else ((s4.coverEvent c r .openAbandoned).waitPurge c r).coverOpportunity c r
    else (s4.waitPurge c r).coverOpportunity c r
  | some cause =>
    let s3 := (s2.raise .purgeFailed).notice .purgeFailed c.val cause (if pending then 1 else 0)
    let s4 := if pending then s3.coverEvent c r .openAbandoned else s3
    (s4.waitPurge c r).coverOpportunity c r

/-- The in-use cover whose COVER record names the point as its purge fan. -/
def State.coverAtFan (s : State) (id : PointId) : Option (Fin 6 × CoverRec) :=
  allCovers.findSome? fun c =>
    match s.coverRec c with
    | some r => if r.fan = id then some (c, r) else none
    | none => none

/-- The in-use cover whose COVER record names the point as its drive or its purge fan. -/
def State.coverAtOutput (s : State) (id : PointId) : Option (Fin 6 × CoverRec) :=
  allCovers.findSome? fun c =>
    match s.coverRec c with
    | some r => if r.fan = id ∨ r.drive = id then some (c, r) else none
    | none => none

/-- A matched echo on a COVER-owned point: the fan's judgement of R132. -/
def State.coverEcho (id : PointId) (applied : Int) (status : ActStatus) (origin : Owner) (s : State) : State :=
  match s.coverAtFan id with
  | some (c, _) =>
    if !(s.cover c).purging then s
    else
      match status with
      | .fault | .localHand => s.modCover c fun v => { v with runFailed := true }
      | .applied | .limited =>
        if origin = Owner.cover ∧ 0 < applied then s.modCover c fun v => { v with confirmed := true } else s
  | none => s

/-- An echo miss on a COVER-owned point: run-failed for a COVER-origin miss on the fan of a run (R132), and the output
opportunity of R137 while the miss count is below 3. -/
def State.coverMiss (id : PointId) (origin : Owner) (s : State) : State :=
  let t :=
    match s.coverAtFan id with
    | some (c, _) =>
      if (s.cover c).purging ∧ origin = Owner.cover then s.modCover c fun v => { v with runFailed := true } else s
    | none => s
  match t.coverAtOutput id with
  | some (c, r) => if (t.status id).misses < 3 then t.coverOpportunity c r else t
  | none => t

/-- A resync of a COVER-owned point, R137. -/
def State.coverResync (id : PointId) (s : State) : State :=
  match s.coverAtOutput id with
  | some (c, r) => if r.drive = id then s.sendDrive c r else s.sendFan c r
  | none => s

/-! ### Derivation, R139 -/

/-- A cover's record after a derivation from a position record. -/
def Cover.derived (v : Cover) (r : CoverRec) (p : PointStatus) : Cover :=
  let base : Cover :=
    { v with openPending := false, valid := false, runFailed := false, confirmed := false, travel := v.travel.stop
             duration := v.duration.stop, validity := v.validity.stop, derivePending := false }
  if !p.quality.usable then
    { base with state := .halted, haltReason := some .derived, derivePending := true, purge := .idle
                interval := v.interval.stop }
  else if 990 ≤ p.value then
    { base with state := .closed, haltReason := none, purge := .waiting, interval := v.interval.start r.interval }
  else if p.value ≤ 10 then
    { base with state := .opened, haltReason := none, purge := .idle, interval := v.interval.stop }
  else { base with state := .halted, haltReason := some .derived, purge := .idle, interval := v.interval.stop }

/-- Derive an in-use cover from its position point; a change of its states is an output opportunity (R137, R139). The states
of a cover that had no machine are taken as OPEN and IDLE, a choice of the model (log 50). -/
def State.deriveCover (c : Fin 6) (r : CoverRec) (s : State) : State :=
  let v := s.cover c
  let w := v.derived r (s.positionOf r)
  let t := s.setCover c w
  if v.state ≠ w.state ∨ v.purge ≠ w.purge then t.coverOpportunity c r else t

/-- Derive every in-use cover, in ascending number (log 40), and form the floors of every zone afresh. -/
def State.deriveCovers (s : State) : State :=
  let t := forEach allCovers (fun c u =>
    match u.coverRec c with
    | some r => u.deriveCover c r
    | none => u.setCover c Cover.blank) s
  forEach allZones State.formFloors t

/-! ### Commands, R121 to R125 -/

/-- The REPLY body of a COVER_COMMAND: the value taken and the cover state after it (Table of Section 12.2). -/
def State.coverAnswer (s : State) (c : Fin 6) (value : Int) (st : Status) (r : Option Reason) : Answer :=
  ⟨st, r, s32 value ++ [byteOf (s.cover c).state.code]⟩

/-- A command for a cover that is not in use: refused STATE, and its REPLY's cover state is a free value (R121, log 25). -/
def State.coverUnused (value : Int) (s : State) : State × Answer :=
  ({ s with freeCount := s.freeCount + 1 }, ⟨.refused, some .state, s32 value ++ [Config.freeByte s.freeCount]⟩)

/-- Answer with the state after a command. -/
def answerCover (c : Fin 6) (value : Int) (st : Status) (r : Option Reason) (s : State) : State × Answer :=
  (s, s.coverAnswer c value st r)

/-- STOP, R124. -/
def State.coverStop (c : Fin 6) (r : CoverRec) (s : State) : State × Answer :=
  let t := if (s.cover c).moving then s.haltCover c r .command .haltedCommand else s
  answerCover c 0 .accepted none (t.modCover c fun v => { v with openPending := false })

/-- CLOSE, R122. -/
def State.coverClose (c : Fin 6) (r : CoverRec) (s : State) : State × Answer :=
  match (s.cover c).state with
  | .closing | .opening => answerCover c 1 .refused (some .busy) s
  | .fault => answerCover c 1 .refused (some .state) s
  | .closed =>
    if (s.cover c).openPending then
      answerCover c 1 .accepted none (s.modCover c fun v => { v with openPending := false })
    else answerCover c 1 .refused (some .state) s
  | .opened | .halted =>
    match s.interlock r true with
    | some why => answerCover c 1 .refused (some why) s
    | none => answerCover c 1 .accepted none (s.startClose c r)

/-- The purge consequence of a deferred OPEN, R123. -/
def State.deferOpen (c : Fin 6) (r : CoverRec) (s : State) : State :=
  let t := s.modCover c fun v => { v with openPending := true }
  if (t.cover c).purge = .waiting then
    (t.modCover c fun v => { v with interval := v.interval.stop }).startPurge c r
  else t

/-- OPEN, R123. -/
def State.coverOpen (c : Fin 6) (r : CoverRec) (s : State) : State × Answer :=
  match (s.cover c).state with
  | .closing | .opening => answerCover c 2 .refused (some .busy) s
  | .opened | .fault => answerCover c 2 .refused (some .state) s
  | .closed | .halted =>
    match s.interlock r false with
    | some why => answerCover c 2 .refused (some why) s
    | none =>
      if (s.cover c).valid ∨ ((s.cover c).state = .halted ∧ (s.cover c).purge = .idle) then
        answerCover c 2 .accepted none (s.startOpen c r)
      else answerCover c 2 .deferred (some .purge) (s.deferOpen c r)

/-- RESET_FAULT, R125. -/
def State.coverReset (c : Fin 6) (r : CoverRec) (s : State) : State × Answer :=
  if (s.cover c).state = .fault then
    let t := s.modCover c fun v => { v with state := .halted, haltReason := some .reset, derivePending := false }
    answerCover c 3 .accepted none (t.coverOpportunity c r)
  else answerCover c 3 .refused (some .state) s

/-- A COVER_COMMAND by its value, R121 to R125. -/
def State.coverCommand (c : Fin 6) (value : Int) (s : State) : State × Answer :=
  match s.coverRec c with
  | none => s.coverUnused value
  | some r =>
    if value = 0 then s.coverStop c r
    else if value = 1 then s.coverClose c r
    else if value = 2 then s.coverOpen c r
    else s.coverReset c r

/-! ### Expiries, R129, R131, R133, R134; the timer has taken its post-expiry state (R77) -/

/-- The travel timer of a cover has expired, R129. -/
def State.travelExpired (c : Fin 6) (s : State) : State :=
  match s.coverRec c with
  | none => s
  | some r =>
    if !(s.cover c).moving then s
    else
      let t := (s.submit .cover r.drive 0 0).modCover c fun v => { v with state := .fault }
      ((t.raise .coverFault).coverEvent c r .fault).coverOpportunity c r

/-- The interval timer of a cover has expired, R131. -/
def State.intervalExpired (c : Fin 6) (s : State) : State :=
  match s.coverRec c with
  | none => s
  | some r => if (s.cover c).purge = .waiting then s.startPurge c r else s

/-- The duration timer of a cover has expired, R133. -/
def State.durationExpired (c : Fin 6) (s : State) : State :=
  match s.coverRec c with
  | none => s
  | some r => if (s.cover c).purging then s.endPurge c r else s

/-- The validity timer of a cover has expired, R134. -/
def State.validityExpired (c : Fin 6) (s : State) : State := s.modCover c fun v => { v with valid := false }

end Sys2Proof.Machine
end

