-- ==== Sys2Proof/Machine/Lighting.lean ====
section
/-! DEFINITION. The Lighting Sequencer, Chapter 9: the palette, retargeting, supply machines, cue loops, sources, the split
and evacuation. -/

namespace Sys2Proof.Machine

/-! ### The palette, R141 to R143 -/

def Levels.level (v : Levels) : LampClass → Int
  | .ambient => v.ambient
  | .underwater => v.underwater
  | .accent => v.accent

/-- The class after AMBIENT and UNDERWATER; ACCENT completes the triple (R143). -/
def LampClass.after : LampClass → LampClass
  | .ambient => .underwater
  | .underwater => .accent
  | .accent => .ambient

/-- PALETTE_POINTER to an entry in range, R142. -/
def Palette.point (p : Palette) (e : Fin 64) : Palette := { p with entry := e, lampClass := .ambient, held := [] }

/-- One value of a PALETTE_WRITE, R143. -/
def Palette.put (p : Palette) (value : Int) : Palette :=
  let v := clampTo 0 1000 value
  match p.lampClass with
  | .accent =>
    let triple : Levels := { ambient := p.held.getD 0 0, underwater := p.held.getD 1 0, accent := v }
    { entries := if p.entry = 0 then p.entries else p.entries.set p.entry triple
      entry := p.entry + 1, lampClass := .ambient, held := [] }
  | c => { p with lampClass := c.after, held := p.held ++ [v] }

/-- The values of a PALETTE_WRITE in the order given. -/
def Palette.write (p : Palette) (values : List Int) : Palette := values.foldl Palette.put p

/-! ### Governing levels, R146 -/

/-- The source a lamp follows, R145. -/
def State.sourceOf (s : State) (d : PointDef) : SourceId := if d.strip < s.split then .a else .b

/-- The governing level and fade of a lamp, R146. -/
def State.governing (s : State) (d : PointDef) : Int × Nat :=
  if s.evacuating then (1000, 0)
  else if s.mode = some .dormant then (0, s.hall.darkFade)
  else
    match (s.source (s.sourceOf d)).playing with
    | some p =>
      let step := (s.loop p.1).steps[p.2]
      ((s.palette.entries[Fin.ofNat 64 step.scene]).level d.lampClass, step.fade)
    | none => (0, s.hall.darkFade)

/-- The record of a lamp whose target changes, R147. -/
def Lamp.retarget (l : Lamp) (g : Int × Nat) : Lamp :=
  { l with start := l.expected, target := g.1, fade := g.2, elapsed := 0 }

/-! ### Supply machines, R156 to R160 -/

def State.modSupply (z : Fin 8) (f : Supply → Supply) (s : State) : State := s.setSupply z ((s.supply z).map f)

/-- The awaiting set of a POWERING machine is empty (R158). -/
def State.awaitsNone (s : State) (z : Fin 8) : Bool :=
  match s.supply z with
  | some m => decide (m.state = .powering) && m.awaiting.isEmpty
  | none => false

/-- SET 1 to a supply point of a POWERING machine: it joins the awaiting set when placed, and is not in it when withheld
(R157, R158). -/
def State.powerPoint (z : Fin 8) (id : PointId) (s : State) : State :=
  let r := s.trySubmit .lighting id 1 0
  r.1.modSupply z fun m =>
    let others := m.awaiting.filter (· ≠ id)
    { m with awaiting := if r.2 then others ++ [id] else others }

/-- The current output for a zone's supply points, R160. -/
def State.supplyOutput (s : State) (z : Fin 8) : Int :=
  match s.supply z with
  | some m => if m.state = .off then 0 else 1
  | none => 0

/-- An ON machine whose zone has no demand goes to STOPPING, but not while an EVACUATE latch is set (R157). -/
def State.examineOn (z : Fin 8) (s : State) : State :=
  match s.supply z with
  | some m =>
    if m.state = .on ∧ !s.demand z ∧ !s.evacuating then
      s.setSupply z (some { m with state := .stopping, offDelay := m.offDelay.startOnce s.hall.supplyOff })
    else s
  | none => s

/-- Submit a lamp its target. -/
def State.sendLamp (id : PointId) (s : State) : State :=
  match s.lamp id with
  | some l => s.submit .lighting id l.target l.fade
  | none => s

/-- The deferred lamps of a zone, in strip order (log 55). -/
def State.deferredLamps (s : State) (z : Fin 8) : List PointId :=
  ((s.zoneLamps z).filter fun p => p.2.deferred).map fun p => p.1.id

/-- Send a deferred lamp its latest target and let its fade begin (R158). -/
def State.releaseLamp (id : PointId) (s : State) : State :=
  (s.sendLamp id).modLamp id fun l => { l with deferred := false, elapsed := 0 }

/-- The release of a machine, R158. -/
def State.releaseSupply (z : Fin 8) (s : State) : State :=
  let t := s.modSupply z fun m => { m with state := .on, awaiting := [] }
  (forEach (t.deferredLamps z) State.releaseLamp t).examineOn z

/-- The examination of a zone's machine, R157. -/
def State.examineSupply (z : Fin 8) (s : State) : State :=
  match s.supply z with
  | none => s
  | some m =>
    match m.state with
    | .off =>
      if s.demand z then
        let t := s.setSupply z (some { m with state := .powering, awaiting := [] })
        let u := forEach (s.supplyPoints z) (State.powerPoint z) t
        if u.awaitsNone z then u.releaseSupply z else u
      else s
    | .stopping =>
      if s.demand z then s.setSupply z (some { m with state := .on, offDelay := m.offDelay.stop }) else s
    | .on => s.examineOn z
    | .powering => s

/-- Submit a supply point its current output; in POWERING it joins or leaves the awaiting set, and the last to leave
releases the machine (R158, R160). -/
def State.serveSupply (z : Fin 8) (id : PointId) (s : State) : State :=
  if s.powering z then
    let t := s.powerPoint z id
    if t.awaitsNone z then t.releaseSupply z else t
  else s.submit .lighting id (s.supplyOutput z) 0

/-- Submit a lamp its current output, its target with the fade time left, but for a deferred lamp and a non-zero target
of a POWERING zone (R160). -/
def State.serveLamp (z : Fin 8) (id : PointId) (s : State) : State :=
  match s.lamp id with
  | some l =>
    if l.deferred ∨ (s.powering z ∧ l.target ≠ 0) then s
    else s.submit .lighting id l.target (l.fade - l.elapsed)
  | none => s

/-- Do `f` for a point whose resend-wanted flag is set. -/
def State.ifWanted (id : PointId) (f : State → State) (s : State) : State := if (s.status id).resend then f s else s

/-- An output opportunity of a zone, R160; its supply points before its lamps, and these in strip order (logs 19, 55). -/
def State.lightOpportunity (z : Fin 8) (s : State) : State :=
  let t := forEach (s.supplyPoints z) (fun id u => u.ifWanted id (State.serveSupply z id)) s
  forEach ((t.zoneLamps z).map fun p => p.1.id) (fun id u => u.ifWanted id (State.serveLamp z id)) t

/-- The state of a zone's supply, none without a machine. -/
def State.supplyState (s : State) (z : Fin 8) : Option SupplyState := (s.supply z).map (·.state)

/-- An output opportunity when the zone's supply state has changed since `before`. -/
def State.ifSupplyMoved (z : Fin 8) (before s : State) : State :=
  if before.supplyState z = s.supplyState z then s else s.lightOpportunity z

/-- A supply point leaves the awaiting set; the last to leave releases the machine (R158). -/
def State.leaveAwaiting (z : Fin 8) (id : PointId) (s : State) : State :=
  match s.supply z with
  | some m =>
    if m.state = .powering ∧ id ∈ m.awaiting then
      let t := s.setSupply z (some { m with awaiting := m.awaiting.filter (· ≠ id) })
      if t.awaitsNone z then (t.releaseSupply z).lightOpportunity z else t
    else s
  | none => s

/-- The zone of a LIGHTING-owned supply point. -/
def State.supplyZone (s : State) (id : PointId) : Option (Fin 8) :=
  match s.point id with
  | some d => if d.role = .actuator .lampSupply ∧ d.owner = some .lighting then d.zone else none
  | none => none

/-- The point, when it is a supply point, leaves its zone's awaiting set. -/
def State.answered (id : PointId) (s : State) : State :=
  match s.supplyZone id with
  | some z => s.leaveAwaiting z id
  | none => s

/-- A matched echo on a LIGHTING-owned point, R158. -/
def State.lightEcho (id : PointId) (origin : Owner) (s : State) : State :=
  if origin = Owner.lighting then s.answered id else s

/-- The zone of a LIGHTING-owned lamp or supply point. -/
def State.lightZone (s : State) (id : PointId) : Option (Fin 8) :=
  match s.point id with
  | some d => if d.role.isLighting ∧ d.owner = some .lighting then d.zone else none
  | none => none

/-- An echo miss on a LIGHTING-owned point: the answer of R158 and then the opportunity of R160. -/
def State.lightMiss (id : PointId) (origin : Owner) (s : State) : State :=
  let t := s.lightEcho id origin
  match t.lightZone id with
  | some z => if (t.status id).misses < 3 then t.lightOpportunity z else t
  | none => t

/-- A resync of a LIGHTING-owned point, R160. -/
def State.lightResync (id : PointId) (s : State) : State :=
  match s.supplyZone id with
  | some z => State.ifSupplyMoved z s (s.serveSupply z id)
  | none =>
    match s.lightZone id with
    | some z => s.serveLamp z id
    | none => s

/-! ### Retargeting, R147 and R148 -/

/-- The lamps of the strip that satisfy a test of their definition and record, in strip order (log 55). -/
def State.lampsWhere (s : State) (p : PointDef → Lamp → Bool) : List PointId :=
  (s.lamps.filter fun r =>
    match s.point r.id with
    | some d => p d r.lamp
    | none => false).map (·.id)

/-- The zones that hold one of the lamps, in ascending number. -/
def State.zonesOf (s : State) (ids : List PointId) : List (Fin 8) :=
  allZones.filter fun z => (s.zoneLamps z).any fun p => p.1.id ∈ ids

/-- Dispose of a noted lamp's SET: deferred while its zone's supply is POWERING, and submitted otherwise (R148). -/
def State.disposeLamp (id : PointId) (s : State) : State :=
  let deferred :=
    match s.lightZone id with
    | some z => s.powering z
    | none => false
  if deferred then s.modLamp id fun l => { l with deferred := true } else s.sendLamp id

/-- Give a lamp its governing level (R147). -/
def State.retargetLamp (id : PointId) (s : State) : State :=
  match s.point id with
  | some d => s.modLamp id fun l => l.retarget (s.governing d)
  | none => s

/-- A retarget event, R148; in each step the zones in ascending number (log 48). A lamp in `forced` is taken as though its
target differed (R163). -/
def State.retarget (named : PointDef → Bool) (forced : List PointId) (s : State) : State :=
  let hit := s.lampsWhere fun d _ => named d
  let noted := s.lampsWhere fun d l => named d && (l.target != (s.governing d).1 || decide (d.id ∈ forced))
  let zones := s.zonesOf hit
  let s1 := forEach noted State.retargetLamp s
  let s2 := forEach zones State.examineSupply s1
  let s3 := forEach noted State.disposeLamp s2
  let s4 := forEach zones State.lightOpportunity s3
  forEach (s.zonesOf noted) State.darkCovers s4

/-- A retarget event that names every lamp of the strip. -/
def State.retargetAll (s : State) : State := s.retarget (fun _ => true) []

/-! ### Evacuation, R163 -/

/-- A zone's machine at the evacuation start: SET 1 to every supply point, and ON. -/
def State.evacuateZone (z : Fin 8) (s : State) : State :=
  match s.supply z with
  | some m =>
    let t := s.setSupply z (some { m with awaiting := [], offDelay := m.offDelay.stop })
    let u := forEach (s.supplyPoints z) (fun id => State.submit .lighting id 1 0) t
    u.modSupply z fun m => { m with state := .on }
  | none => s

/-- The evacuation start, R163. A lamp that is not deferred and has target 1000 already keeps its record and the fade under
way, as R147 has it, a choice of the model (log 61). -/
def State.evacuationStart (s : State) : State :=
  let s1 := forEach allZones State.evacuateZone s
  let waiting := s1.lampsWhere fun _ l => l.deferred
  let s2 := { s1 with lamps := s1.lamps.map fun (r : LampRow) => { r with lamp := { r.lamp with deferred := false } } }
  let s3 := s2.retarget (fun _ => true) waiting
  forEach allZones (fun z => State.ifSupplyMoved z s) s3

/-! ### Sources, R152 to R155 -/

/-- A source enters a step, R154. -/
def State.enterStep (src : SourceId) (l : Fin 4) (k : Fin 64) (s : State) : State :=
  let step := (s.loop l).steps[k]
  let t := s.setSource src { playing := some (l, k), hold := (s.source src).hold.start ⟨step.prescale, step.count⟩ }
  t.retarget (fun d => s.sourceOf d = src) []

/-- CUE_SELECT, R152. -/
def State.cueSelect (src : SourceId) (value : Int) (s : State) : State × Answer :=
  if value = 255 then
    let t := s.setSource src { playing := none, hold := (s.source src).hold.stop }
    (t.retarget (fun d => s.sourceOf d = src) [], .ok (s32 value))
  else
    let l := Fin.ofNat 4 value.toNat
    if (s.loop l).length = 0 then (s, ⟨.refused, some .empty, s32 value⟩)
    else (s.enterStep src l 0, .ok (s32 value))

/-- The step a CUE_ADVANCE by mark enters: the first of s + 1 … s + L, each mod L, that holds the channel (R153). -/
def Loop.seek (l : Loop) (from' : Fin 64) (channel : Nat) : Option (Fin 64) :=
  ((List.range l.length).map fun i => Fin.ofNat 64 ((from'.val + 1 + i) % l.length)).find? fun k =>
    (l.steps[k]).marks.getLsbD (channel - 1)

/-- CUE_ADVANCE, R153. -/
def State.cueAdvance (src : SourceId) (value : Int) (s : State) : State × Answer :=
  match (s.source src).playing with
  | none => (s, ⟨.refused, some .idle, s32 value⟩)
  | some (l, k) =>
    if value ≤ 63 then
      (s.enterStep src l (Fin.ofNat 64 ((k.val + value.toNat) % (s.loop l).length)), .ok (s32 value))
    else
      match (s.loop l).seek k (value.toNat - 100) with
      | some j => (s.enterStep src l j, .ok (s32 value))
      | none => (s, ⟨.refused, some .noMark, s32 value⟩)

/-- The cue-hold timer of a source has expired, R154. -/
def State.cueExpired (src : SourceId) (s : State) : State :=
  match (s.source src).playing with
  | some (l, k) => s.enterStep src l (Fin.ofNat 64 ((k.val + 1) % (s.loop l).length))
  | none => s

/-- SPLIT_POSITION, R155. -/
def State.setSplit (k : Nat) (s : State) : State :=
  let t := { s with split := k }
  t.retarget (fun d => decide (s.sourceOf d ≠ t.sourceOf d)) []

/-- The off-delay timer of a zone has expired, R159. -/
def State.offDelayExpired (z : Fin 8) (s : State) : State :=
  match s.supply z with
  | some m =>
    if m.state = .stopping then
      let t := forEach (s.supplyPoints z) (fun id => State.submit .lighting id 0 0) s
      (t.modSupply z fun m => { m with state := .off }).lightOpportunity z
    else s
  | none => s

/-- One 0.1 s tick of a lamp's fade, R149. -/
def Lamp.tick (l : Lamp) : Lamp := if !l.deferred ∧ l.elapsed < l.fade then { l with elapsed := l.elapsed + 1 } else l

/-! ### Loops, R150 and R151 -/

/-- A loop is in use while a source is PLAYING it. -/
def State.loopInUse (s : State) (l : Fin 4) : Bool :=
  (s.sourceA.playing.map (·.1)) = some l || (s.sourceB.playing.map (·.1)) = some l

/-- The fields of a step record lie in the ranges of Table 9-5. -/
def stepInRange (r : StepRecord) : Bool :=
  decide (r.scene ≤ 63 ∧ r.fade ≤ 600 ∧ r.prescale ≤ 64 ∧ (r.prescale = 0 ∨ (1 ≤ r.count ∧ r.count ≤ 256)))

/-- The record as it is stored: the hold count of an indefinite hold is 1 (R150). -/
def storedStep (r : StepRecord) : StepRecord := if r.prescale = 0 then { r with count := 1 } else r

/-- Store records from a step onward. -/
def Loop.store (l : Loop) : Nat → List StepRecord → Loop
  | _, [] => l
  | k, r :: rest => Loop.store { l with steps := l.steps.set (Fin.ofNat 64 k) (storedStep r) } (k + 1) rest

/-! ### Resets, R145, R156, R165 -/

/-- The strip at GO, every lamp record dark. -/
def freshLamps (rs : List Stored) : List LampRow := (stripOf rs).map fun d => ⟨d.id, Lamp.dark⟩

/-- The supply machine a zone has at GO. -/
def freshSupply (rs : List Stored) (z : Fin 8) : Option Supply :=
  if supplyPointsIn rs z = [] then none else some Supply.start

def freshSupplies (rs : List Stored) : Vector (Option Supply) 8 := Vector.ofFn (freshSupply rs)

/-- Both sources STOPPED and the split 96 (R145, R152). -/
def State.stopSources (s : State) : State :=
  { s with sourceA := { playing := none, hold := s.sourceA.hold.stop }
           sourceB := { playing := none, hold := s.sourceB.hold.stop }, split := 96 }

/-- CLEAR's part of the Sequencer: each awaited supply point is submitted SET 1 again (R165), zone by zone and in the order
in which the points joined (log 57). -/
def State.clearLighting (s : State) : State :=
  forEach allZones (fun z t =>
    match t.supply z with
    | some m => State.ifSupplyMoved z t (forEach m.awaiting (fun id u => u.serveSupply z id) t)
    | none => t) s.stopSources

/-- The strip after a bank switch: a lamp with a record on the old strip carries it (R145). -/
def carriedLamps (rs : List Stored) (old : List LampRow) : List LampRow :=
  (stripOf rs).map fun d => ⟨d.id, (((old.find? fun r => r.id = d.id).map (·.lamp))).getD Lamp.dark⟩

/-- The same points, in any order. -/
def samePoints (a b : List PointId) : Bool := a.all (fun x => decide (x ∈ b)) && b.all (fun x => decide (x ∈ a))

/-- A zone's machine at a bank switch from the records `old`, R165. -/
def State.rebuildSupply (old : List Stored) (z : Fin 8) (s : State) : State :=
  let points := s.supplyPoints z
  if samePoints (supplyPointsIn old z) points then s
  else if points = [] then s.setSupply z none
  else if s.evacuating then
    let t := forEach points (fun id => State.submit .lighting id 1 0) (s.setSupply z (some Supply.start))
    t.modSupply z fun m => { m with state := .on }
  else s.setSupply z (some Supply.start)

/-- Send the deferred lamps of a zone whose supply is not POWERING, so that no lamp waits for a release that cannot come
(log 32). -/
def State.releaseStray (z : Fin 8) (s : State) : State :=
  if s.powering z then s else forEach (s.deferredLamps z) State.releaseLamp s

/-- The Sequencer's stage of a bank switch: the supply machines, in ascending zone number (log 48), then the retarget of the
new strip (R15, R165). A machine replaced is not taken as a change of its zone's supply state (log 56). -/
def State.switchLighting (old : List Stored) (s : State) : State :=
  let t := (forEach allZones (State.rebuildSupply old) s).retargetAll
  forEach allZones State.releaseStray t

end Sys2Proof.Machine
end

