-- ==== Sys2Proof/Machine/Moisture.lean ====
section
/-! DEFINITION. The Moisture Arithmetic unit, Chapter 6: the inputs, the saturation table, the stages and the outdoor
dew point. -/

namespace Sys2Proof.Machine

/-! ### Inputs, R82 to R84 -/

/-- The status records of the usable points of a quantity in a zone (R82). -/
def State.contributors (s : State) (q : Quantity) (z : Option (Fin 8)) : List PointStatus :=
  ((s.points.filter fun d => d.role = .sensor q ∧ d.zone = z).map fun d => s.status d.id).filter (·.quality.usable)

/-- The mean, truncated toward zero; none when no point is usable (R83). -/
def meanOf (l : List PointStatus) : Option Int :=
  if l = [] then none else some ((l.map PointStatus.value).sum.tdiv l.length)

/-- The minimum; none when no point is usable (R84). -/
def leastOf : List PointStatus → Option Int
  | [] => none
  | p :: ps => some (ps.foldl (fun m x => min m x.value) p.value)

def anyStale (l : List PointStatus) : Bool := l.any fun p => p.quality = .stale

/-! ### The saturation table, R87 -/

/-- Table 6-1, in pascals. -/
def saturationTable : List Nat :=
  [126, 149, 176, 208, 245, 287, 335, 391, 455, 528, 611, 706, 813, 935] ++
  [1073, 1228, 1403, 1599, 1818, 2064, 2339, 2645, 2985, 3363, 3782, 4246, 4759, 5324] ++
  [5947, 6632, 7384, 8208, 9110, 10095, 11171, 12352, 13631, 15022, 16532, 18171, 19946]

/-- P[k]. -/
def sat (k : Nat) : Nat := saturationTable.getD k 0

/-! ### The stages, R88 to R91 -/

/-- The saturation pressure at a clamped temperature, R89. -/
def satPressure (t : Int) : Nat :=
  let u := (t + 2000).toNat
  let i := u / 200
  let r := u % 200
  if 40 ≤ i then sat 40 else sat i + (sat (i + 1) - sat i) * r / 200

/-- The vapour pressure, R90. -/
def vapourPressure (psat rh : Nat) : Nat := psat * rh / 1000

/-- The largest index whose pressure is `pv` or less, for a `pv` of P[0] or more (R91). -/
def segmentOf (pv : Nat) : Nat := (List.range 41).foldl (fun best k => if sat k ≤ pv then k else best) 0

/-- The inverted table, before the last step of R91. -/
def dewOf (pv : Nat) : Int :=
  if pv < sat 0 then -2000
  else
    let k := segmentOf pv
    if k = 40 then 6000 else -2000 + 200 * (k : Int) + (((pv - sat k) * 200 / (sat (k + 1) - sat k) : Nat) : Int)

/-- What the stages through the dew point find. -/
structure Dew where
  temp : Int
  rh : Int
  dew : Int
  clamped : Bool
  dewLow : Bool
deriving DecidableEq, Repr

/-- R88 to R91 on an air temperature and an RH. -/
def airStages (t rh : Int) : Dew :=
  let tc := clampTo (-2000) 6000 t
  let rc := clampTo 0 1000 rh
  let pv := vapourPressure (satPressure tc) rc.toNat
  { temp := tc, rh := rc, dew := min (dewOf pv) tc, clamped := tc != t, dewLow := decide (pv < sat 0) }

/-! ### The computation, R85, R86, R92 to R94 -/

/-- The course a computation takes, R86. -/
inductive Course
  | held
  | dewOnly
  | full
deriving DecidableEq, Repr

/-- The course from the inputs, R86. -/
def courseOf (t rh surface : Option Int) : Course :=
  if t.isNone ∨ rh.isNone then .held else if surface.isNone then .dewOnly else .full

/-- The zone's fields after the computation, R85 to R92. -/
def moistZone (t rh surface : Option Int) (stale : Bool) (v : Zone) : Zone :=
  match t, rh with
  | some t, some rh =>
    let d := airStages t rh
    let w := { v with air := d.temp, rh := d.rh, dew := d.dew, degraded := stale, dewLow := d.dewLow }
    match surface with
    | some f =>
      let fc := clampTo (-2000) 6000 f
      { w with rangeT := d.clamped || fc != f, margin := fc - d.dew, marginValid := true }
    | none => { w with rangeT := d.clamped, marginValid := false }
  | _, _ => { v with degraded := true }

/-- The outdoor record after the computation of R93. -/
def moistOutdoor (t rh : Option Int) (o : Outdoor) : Outdoor :=
  match t, rh with
  | some t, some rh =>
    let d := airStages t rh
    { usable := true, temp := d.temp, rh := d.rh, dew := d.dew, rangeT := d.clamped, dewLow := d.dewLow }
  | _, _ => { o with usable := false }

def State.airPoints (s : State) (z : Fin 8) : List PointStatus := s.contributors .airTemp (some z)
def State.rhPoints (s : State) (z : Fin 8) : List PointStatus := s.contributors .airRh (some z)
def State.waterPoints (s : State) (z : Fin 8) : List PointStatus := s.contributors .waterTemp (some z)
def State.surfacePoints (s : State) (z : Fin 8) : List PointStatus := s.contributors .surfaceTemp (some z)
def State.outdoorTempPoints (s : State) : List PointStatus := s.contributors .outdoorTemp none
def State.outdoorRhPoints (s : State) : List PointStatus := s.contributors .outdoorRh none

/-- The course a computation for the zone takes now. -/
def State.course (s : State) (z : Fin 8) : Course :=
  courseOf (meanOf (s.airPoints z)) (meanOf (s.rhPoints z)) (leastOf (s.surfacePoints z))

/-- A contributing point of a watch computation is STALE (R85, R94). -/
def State.watchStale (s : State) (z : Fin 8) : Bool :=
  anyStale (s.airPoints z) || anyStale (s.rhPoints z) || anyStale (s.surfacePoints z)

/-- A contributing point of a full computation is STALE (R85, R94). -/
def State.fullStale (s : State) (z : Fin 8) : Bool :=
  s.watchStale z || anyStale (s.waterPoints z) || anyStale s.outdoorTempPoints || anyStale s.outdoorRhPoints

/-- The computation of a dormant watch evaluation (R94). -/
def State.watchMoisture (z : Fin 8) (s : State) : State :=
  s.modZone z
    (moistZone (meanOf (s.airPoints z)) (meanOf (s.rhPoints z)) (leastOf (s.surfacePoints z)) (s.watchStale z))

/-- The computation of a full zone evaluation: the zone's stages and then the outdoor dew point (R93, R94). -/
def State.fullMoisture (z : Fin 8) (s : State) : State :=
  let t := s.modZone z
    (moistZone (meanOf (s.airPoints z)) (meanOf (s.rhPoints z)) (leastOf (s.surfacePoints z)) (s.fullStale z))
  { t with outdoor := moistOutdoor (meanOf s.outdoorTempPoints) (meanOf s.outdoorRhPoints) s.outdoor }

end Sys2Proof.Machine
end

