-- ==== Sys2Proof/Machine/Climate.lean ====
section
/-! DEFINITION. The Climate Engine and the Plant Share Arbiter, Chapter 7: the stages of a zone evaluation, occupancy,
DORMANT and the allocation pass. -/

namespace Sys2Proof.Machine

/-! ### The Plant Share Arbiter, R116 to R118 -/

/-- The two zones of a plant group in the order its pair-order bit gives (R117). -/
def groupZones (bits : BitVec 4) (g : Nat) : List (Fin 8) :=
  let a := Fin.ofNat 8 (2 * g)
  let b := Fin.ofNat 8 (2 * g + 1)
  if bits.getLsbD g then [b, a] else [a, b]

/-- The priority order of a PLANT record, R117. -/
def priorityOf (p : PlantRec) : List (Fin 8) := p.order.flatMap (groupZones p.pairBits)

/-- Grant along a list of zones with the plant that remains (R118). -/
def grantAlong : List (Fin 8) → Nat → State → State
  | [], _, s => s
  | z :: zs, left, s =>
    let g := min (s.zone z).request left
    grantAlong zs (left - g) (s.modZone z fun v => { v with grant := g })

/-- An allocation pass, R118. -/
def State.allocate (s : State) : State := grantAlong s.priority s.effectiveCapacity s

/-- Take the priority order and the capacity value of the active bank's PLANT record (R116, R117). -/
def State.loadPlant (s : State) : State := { s with priority := priorityOf s.plant, capacity := some s.plant.capacity }

/-- Every request 0. -/
def State.noRequests (s : State) : State := forEach allZones (fun z => State.modZone z fun v => { v with request := 0 }) s

/-! ### Occupancy, R111 and R112 -/

/-- The OCCUPANCY points of a zone. -/
def State.occupancyPoints (s : State) (z : Fin 8) : List PointDef :=
  s.points.filter fun d => d.role = .sensor .occupancy ∧ d.zone = some z

/-- Whether a zone is occupied now, R111. -/
def State.occupiedNow (s : State) (z : Fin 8) : Bool :=
  (s.zoneRec z).isSome &&
    ((s.zone z).holdTimer.running || (s.occupancyPoints z).any fun d => decide ((s.status d.id).quality ≠ .good))

/-- Re-examine a zone's occupied flag; a set flag is delivered to the Cover Controller (R111). -/
def State.examineOccupied (z : Fin 8) (s : State) : State :=
  let now := s.occupiedNow z
  let was := (s.zone z).occupied
  let t := s.modZone z fun v => { v with occupied := now }
  if now && !was then t.occupiedCovers z else t

/-- An OCCUPANCY point's event reaches its zone: `seen` is a GOOD sample above 0, `changed` a change of quality (R53). -/
def State.deliverOccupancy (d : PointDef) (seen changed : Bool) (s : State) : State :=
  match d.zone with
  | none => s
  | some z =>
    if (s.zoneRec z).isNone then s
    else
      let t := if seen then s.modZone z fun v => { v with holdTimer := v.holdTimer.start s.hall.hold } else s
      if seen || changed then t.examineOccupied z else t

/-! ### The stages, R100 to R108 -/

/-- Starvation bookkeeping, R100. -/
def State.starvation (z : Fin 8) (s : State) : State :=
  let v := s.zone z
  if v.grant < v.request then
    let n := satSucc 3 v.starved
    let t := s.setZone z { v with starved := n, unstarved := 0 }
    if n = 3 ∧ !v.plantShort then
      ((t.modZone z fun v => { v with plantShort := true }).raise .plantShort).notice .plantShort z.val 1 v.request
    else t
  else
    let n := satSucc 3 v.unstarved
    let t := s.setZone z { v with unstarved := n, starved := 0 }
    if n = 3 ∧ v.plantShort then
      (t.modZone z fun v => { v with plantShort := false }).notice .plantShort z.val 0 v.request
    else t

/-- The demand of an error over a band, clamped to 0..1000 (R101, R106). -/
def demandOf (error : Int) (band : Nat) : Int := clampTo 0 1000 ((error * 1000).tdiv band)

/-- The dehumidification demand, R101. -/
def dehumDemand (r : ZoneRec) (course : Course) (v : Zone) : Int :=
  let e1 := v.dew - r.dewLimit
  match course with
  | .held => r.fallback
  | .dewOnly => demandOf e1 r.dehumBand
  | .full => demandOf (max e1 (r.marginTarget - v.margin)) r.dehumBand

/-- The condensation-risk stage, R102. -/
def State.riskStage (z : Fin 8) (r : ZoneRec) (course : Course) (s : State) : State :=
  let v := s.zone z
  if course ≠ .full then s
  else if !v.risk ∧ v.margin < 0 then
    ((s.modZone z fun v => { v with risk := true }).raise .condensation).notice .condensationSet z.val v.margin v.dew
  else if v.risk ∧ (r.marginTarget : Int) ≤ v.margin then
    (s.modZone z fun v => { v with risk := false }).notice .condensationClear z.val v.margin v.dew
  else s

/-- The strategy, R103. -/
def strategyOf (r : ZoneRec) (o : Outdoor) (v : Zone) : Strategy :=
  if v.dehum = 0 then .none
  else if o.usable ∧ o.dew ≤ r.dewLimit - (r.approach : Int) ∧ !v.plantShort then .outdoorAir
  else .heatPump

/-- The HP stage, R104. -/
def hpStage (r : ZoneRec) (v : Zone) : Bool :=
  if v.strategy = .heatPump then
    if (r.hpOn : Int) ≤ v.dehum then true else if v.dehum ≤ (r.hpOff : Int) then false else v.hp
  else false

/-- Every in-use cover whose COVER record names the zone is CLOSED (R105). A cover entering use at a bank switch counts as
OPEN until it is derived, a choice of the model (log 52). -/
def State.coversClosed (s : State) (z : Fin 8) : Bool :=
  allCovers.all fun c =>
    match s.coverRec c with
    | some r => decide (r.zone = z.val → (s.cover c).state = .closed)
    | none => true

/-- The setpoint stage, R105; `setback` says that the night setback applies. The water temperature used keeps its last
value while it is unusable (log 33). -/
def setpointStage (r : ZoneRec) (water : Option Int) (setback : Bool) (v : Zone) : Zone :=
  match water with
  | some w =>
    let raw := w + r.waterOffset + v.trim - (if setback then r.setback else 0)
    { v with water := w, waterUsable := true, setpoint := clampTo r.setMin r.setMax raw, setpointValid := true }
  | none =>
    if v.setpointValid then { v with waterUsable := false, setpoint := clampTo r.setMin r.setMax v.setpoint }
    else { v with waterUsable := false, setpoint := (((r.setMin + r.setMax) / 2 : Nat) : Int) }

/-- The heat-demand stage, R106. -/
def heatStage (r : ZoneRec) (load : Int) (v : Zone) : Zone :=
  let lampTerm := (load * r.lampGain).tdiv 1000
  { v with lampLoad := load, heat := demandOf (v.setpoint - v.air - lampTerm) r.heatBand }

/-- The plant request, R107. -/
def requestOf (r : ZoneRec) (v : Zone) : Nat :=
  ((v.heat * r.weight).tdiv 1000 - (if v.hp then (r.credit : Int) else 0)).toNat

/-- The four outputs of a zone. -/
structure Outputs where
  valve : Int
  oa : Int
  fan : Int
  stage : Int
deriving DecidableEq, Repr

/-- The output stage, R108. -/
def outputsOf (r : ZoneRec) (night : Bool) (v : Zone) : Outputs :=
  let least : Int := max v.oaFloor (if v.occupied then r.occupiedOa else 0)
  { valve := if r.weight = 0 then 0 else clampTo 0 1000 (v.grant * 1000 / r.weight : Nat)
    oa := if v.strategy = .outdoorAir then max least v.dehum else least
    fan := max (max (if night then (r.nightFan : Int) else r.dayFan) v.fanFloor)
      (if 0 < v.dehum then (r.dehumFan : Int) else 0)
    stage := if v.hp then 1 else 0 }

/-! ### Sending, R109 -/

/-- The output last sent for a kind, none for a kind the engine does not drive. -/
def Zone.lastSent (v : Zone) : ActKind → Option Int
  | .heatValve => v.lastValve
  | .oaDamper => v.lastOa
  | .supplyFan => v.lastFan
  | .dehumStage => v.lastStage
  | _ => none

def Zone.setLast (v : Zone) (k : ActKind) (x : Option Int) : Zone :=
  match k with
  | .heatValve => { v with lastValve := x }
  | .oaDamper => { v with lastOa := x }
  | .supplyFan => { v with lastFan := x }
  | .dehumStage => { v with lastStage := x }
  | _ => v

/-- An output calls for a SET to every point of its kind: never sent, moved past the deadband, or a refresh (R109). -/
def outputDue (k : ActKind) (value : Int) (last : Option Int) (refresh : Bool) : Bool :=
  match last with
  | none => true
  | some l => refresh || (if k = .dehumStage then decide (value ≠ l) else decide (10 ≤ (value - l).natAbs))

/-- Send one output of a zone to its points (R109). -/
def State.sendOutput (z : Fin 8) (k : ActKind) (value : Int) (refresh : Bool) (s : State) : State :=
  let due := outputDue k value ((s.zone z).lastSent k) refresh
  let wanted := (s.actuators k .climate z).filter fun d =>
    due || (s.status d.id).resend || (s.status d.id).commanded.isNone
  let t := forEach wanted (fun d => State.submit .climate d.id value 0) s
  if wanted = [] then t else t.modZone z fun v => v.setLast k (some value)

/-- The sending stage, R109. The kinds are sent in the order heat valve, OA damper, supply fan, dehumidification stage, an
order the spec does not give (log 64). -/
def State.sendingStage (z : Fin 8) (o : Outputs) (s : State) : State :=
  let n := (s.zone z).refresh + 1
  let refresh := decide (6 ≤ n)
  let t := s.modZone z fun v => { v with refresh := if refresh then 0 else n }
  (((t.sendOutput z .heatValve o.valve refresh).sendOutput z .oaDamper o.oa refresh).sendOutput z .supplyFan o.fan
    refresh).sendOutput z .dehumStage o.stage refresh

/-! ### Evaluations -/

/-- The stages that compute: everything before the plant request (R98, stages 1 to 8). -/
def State.demandStages (z : Fin 8) (r : ZoneRec) (s : State) : State :=
  let course := s.course z
  let water := meanOf (s.waterPoints z)
  let s3 := ((s.fullMoisture z).starvation z).modZone z fun v => { v with dehum := dehumDemand r course v }
  let s4 := s3.riskStage z r course
  let s6 := (s4.modZone z fun v => { v with strategy := strategyOf r s4.outdoor v }).modZone z fun v =>
    { v with hp := hpStage r v }
  let s7 := s6.modZone z (setpointStage r water (decide (s.mode = some .night) && s.coversClosed z))
  if course = .held then s7 else s7.modZone z (heatStage r (s7.lampLoad z))

/-- A zone evaluation of an in-use zone, R98. -/
def State.evaluateWith (z : Fin 8) (r : ZoneRec) (s : State) : State :=
  let s8 := s.demandStages z r
  let s9 := (s8.modZone z fun v => { v with request := requestOf r v }).allocate
  s9.sendingStage z (outputsOf r (decide (s9.mode = some .night)) (s9.zone z))

/-- A zone evaluation; a zone not in use takes none (R4). -/
def State.evaluate (z : Fin 8) (s : State) : State :=
  match s.zoneRec z with
  | some r => s.evaluateWith z r
  | none => s

/-- An evaluation at once, with the zone's evaluation timer started afresh (R98). -/
def State.evaluateNow (z : Fin 8) (s : State) : State :=
  match s.zoneRec z with
  | some r => (s.evaluateWith z r).modZone z fun v => { v with evalTimer := v.evalTimer.start ⟨1, r.period⟩ }
  | none => s

/-- A watch evaluation, R114. -/
def State.watchEvaluate (z : Fin 8) (s : State) : State :=
  match s.zoneRec z with
  | some r => (s.watchMoisture z).riskStage z r (s.course z)
  | none => s

/-- The watch evaluations of a dormant watch expiry, R114. -/
def State.watchEvaluations (s : State) : State := forEach allZones State.watchEvaluate s

/-- The evaluation timer of a zone has expired, R98. -/
def State.evaluationExpired (z : Fin 8) (s : State) : State := if s.mode = some .dormant then s else s.evaluate z

/-- The occupancy hold timer of a zone has expired, R112. -/
def State.holdExpired (z : Fin 8) (s : State) : State := s.examineOccupied z

/-! ### DORMANT, R113 and R115 -/

/-- The kinds the engine drives, in the order the model sends them (log 64). -/
def climateKinds : List ActKind := [.heatValve, .oaDamper, .supplyFan, .dehumStage]

/-- One zone at DORMANT entry, R113; its kinds are submitted SET 0 in the order of log 64. -/
def State.sleepZone (z : Fin 8) (s : State) : State :=
  if (s.zoneRec z).isNone then s
  else
    let t := s.modZone z fun v => { v with evalTimer := v.evalTimer.stop }
    let u := forEach climateKinds (fun k u =>
      (forEach (u.actuators k .climate z) (fun d => State.submit .climate d.id 0 0) u).modZone z fun v =>
        v.setLast k (some 0)) t
    u.modZone z fun v => { v with hp := false, request := 0 }

/-- DORMANT entry in the Climate Engine, R113. -/
def State.climateSleep (s : State) : State := (forEach allZones State.sleepZone s).allocate

/-- DORMANT exit in the Climate Engine, R115. -/
def State.climateWake (s : State) : State := forEach allZones State.evaluateNow s

/-! ### Resync, R110 -/

/-- A resync of a CLIMATE-owned point: the output last sent, 0 in DORMANT, nothing when none was sent. -/
def State.climateResync (id : PointId) (s : State) : State :=
  match s.point id with
  | some d =>
    match d.role, d.zone with
    | .actuator k, some z =>
      if s.mode = some .dormant then s.submit .climate id 0 0
      else
        match (s.zone z).lastSent k with
        | some v => s.submit .climate id v 0
        | none => s
    | _, _ => s
  | none => s

end Sys2Proof.Machine
end

