-- ==== Sys2Proof/Machine/Modes.lean ====
section
/-! DEFINITION. The Mode Controller, Sections 10.1 and 10.2: requests, changes of mode, the blockers of DORMANT, and the
deliveries that wake the hall or re-check a deferred DORMANT. -/

namespace Sys2Proof.Machine

/-! ### Blockers, R169 -/

def State.purgeRuns (s : State) : Bool := allCovers.any fun c => (s.cover c).purging

def State.coverMoves (s : State) : Bool := allCovers.any fun c => (s.cover c).moving

def State.anyRisk (s : State) : Bool := allZones.any fun z => (s.zoneRec z).isSome && (s.zone z).risk

/-- The first blocker of DORMANT in the order of R169. -/
def State.blocker (s : State) : Option Reason :=
  if s.purgeRuns then some .purge
  else if s.coverMoves then some .moving
  else if s.anyRisk then some .condensation
  else if s.evacuating then some .evacuate
  else none

/-! ### Changes of mode, R168 -/

/-- The code of a former mode, −1 where there was none. -/
def formerCode : Option Mode → Int
  | some m => m.code
  | none => -1

/-- Set the mode and queue MODE_CHANGED with a cause when it changes. -/
def State.putMode (m : Mode) (cause : Nat) (s : State) : State :=
  if s.mode = some m then s
  else { s with mode := some m }.notice .modeChanged cause m.code (formerCode s.mode)

/-- A change into DORMANT, R168: the entry is delivered to the Climate Engine and then to the Lighting Sequencer
(log 17). -/
def State.enterDormant (cause : Nat) (s : State) : State :=
  let t := { s with dormantPending := false, watch := s.watch.start s.hall.watch }
  ((t.putMode .dormant cause).climateSleep).retargetAll

/-- A change to another mode than DORMANT; out of DORMANT it stops the watch and delivers the exit (R168). -/
def State.changeMode (m : Mode) (cause : Nat) (s : State) : State :=
  if s.mode = some .dormant then
    if m = .dormant then s
    else (({ s with watch := s.watch.stop }.putMode m cause).climateWake).retargetAll
  else s.putMode m cause

/-! ### Requests, R167 and R169 -/

/-- Some in-use cover is not OPEN, or some cover has open-pending set (R167). -/
def State.coversBar (s : State) : Bool :=
  allCovers.any fun c => ((s.coverRec c).isSome && decide ((s.cover c).state ≠ .opened)) || (s.cover c).openPending

/-- A mode request, R167, with the subject of its cause: the status and reason of its outcome. -/
def State.requestMode (m : Mode) (cause : Nat) (s : State) : State × Status × Option Reason :=
  match m with
  | .openHall =>
    if s.coversBar then (s, .refused, some .covers)
    else ({ s with dormantPending := false }.changeMode m cause, .accepted, none)
  | .staffed | .night => ({ s with dormantPending := false }.changeMode m cause, .accepted, none)
  | .dormant =>
    if s.mode = some .dormant then (s, .accepted, none)
    else
      match s.blocker with
      | some why => ({ s with dormantPending := true }.putMode .night cause, .deferred, some why)
      | none => (s.enterDormant cause, .accepted, none)

/-! ### Deliveries, R170 and R171 -/

/-- What has arisen between two moments that wakes the hall: the subject of MODE_CHANGED, the first in the order of R169. -/
def arisen (before after : State) : Option Nat :=
  if allCovers.any fun c => (after.cover c).purging && !(before.cover c).purging then some 3
  else if allZones.any fun z => (after.zoneRec z).isSome && (after.zone z).risk && !(before.zone z).risk then some 2
  else if after.evacuating && !before.evacuating then some 4
  else none

/-- A blocker of DORMANT has cleared between two moments, R171. -/
def cleared (before after : State) : Bool :=
  (allCovers.any fun c => ((before.cover c).purging && !(after.cover c).purging) ||
    ((before.cover c).moving && !(after.cover c).moving)) ||
  (allZones.any fun z => (before.zone z).risk && !(after.zone z).risk) ||
  (before.evacuating && !after.evacuating)

/-- A blocker that arises in DORMANT wakes the hall, R170. -/
def wake (before after : State) : State :=
  if after.mode = some .dormant then
    match arisen before after with
    | some subject => { after with dormantPending := true }.changeMode .night subject
    | none => after
  else after

/-- A blocker that clears while dormant-pending is set calls for a re-check, R171. -/
def recheck (before after : State) : State :=
  if after.dormantPending && cleared before after && after.blocker.isNone then after.enterDormant 1 else after

/-- The deliveries to the Mode Controller once an event's own effects are complete: what changed between the states before
and after it (R102, R138, R171; log 16). -/
def settle (before after : State) : State :=
  let woken := wake before after
  recheck before woken

end Sys2Proof.Machine
end

