-- ==== Sys2Proof/Machine/Inputs.lean ====
section
/-! DEFINITION. The Input Latches, Section 10.3: debounce, latches, actions, acknowledgement and re-establishment. -/

namespace Sys2Proof.Machine

/-- The active level of a sense, R173. -/
def activeLevel : Sense → Level
  | .activeHigh => .high
  | .activeLow => .low

/-- A line is active under a record, R173. -/
def InputLine.active (l : InputLine) (r : InputRec) : Bool := decide (l.debounced = activeLevel r.sense)

/-- An allocation pass when the effective capacity differs from what it was before (R119, R176). -/
def State.allocateIfMoved (s before : State) : State :=
  if before.effectiveCapacity = s.effectiveCapacity then s else s.allocate

/-- A held action delivered as a latch set, R176: `before` is the state before the latch was set. An EVACUATE latch halts the
covers before the evacuation start, one of the two orders R176 leaves open (log 54). -/
def State.actionSet (a : Action) (s before : State) : State :=
  match a with
  | .evacuate => if before.evacuating then s.stopCovers else s.stopCovers.evacuationStart
  | .coverStop => s.stopCovers
  | .plantTrip => s.allocateIfMoved before
  | _ => s

/-- A held action delivered as a latch cleared, R176: `before` is the state before the latch was cleared. -/
def State.actionEnded (a : Action) (s before : State) : State :=
  match a with
  | .evacuate => if s.evacuating then s else if before.evacuating then s.retargetAll else s
  | .plantTrip => s.allocateIfMoved before
  | _ => s

/-- The mode request of a latch's action, R176. -/
def State.actionRequest (a : Action) (i : Fin 8) (s : State) : State :=
  match a with
  | .requestNight => (s.requestMode .night (16 + i.val)).1
  | .requestStaffed => (s.requestMode .staffed (16 + i.val)).1
  | _ => s

/-- Steps 1 to 3 of R175: the latch, the condition and the notice. -/
def State.putLatch (i : Fin 8) (a : Action) (second : Int) (s : State) : State :=
  ((s.setInput i { s.input i with latch := some a }).raise .input).notice .inputLatched i.val a.code second

/-- Clear a latch. -/
def State.dropLatch (i : Fin 8) (s : State) : State := s.setInput i { s.input i with latch := none }

/-- A debounced transition of a line, R174 and R175. -/
def State.transition (i : Fin 8) (s : State) : State :=
  let l := s.input i
  let t := s.setInput i { l with settling := false, debounced := l.level }
  match t.inputRec i with
  | some r =>
    if r.enabled && !l.active r && (t.input i).active r && l.latch.isNone then
      ((t.putLatch i r.action 0).actionSet r.action t).actionRequest r.action i
    else t
  | none => t

/-- The latch is held by an active EDGE_AND_LEVEL line (R175, R177). -/
def State.levelHeld (i : Fin 8) (s : State) : Bool :=
  match s.inputRec i with
  | some r => r.enabled && decide (r.latching = .edgeAndLevel) && (s.input i).active r
  | none => false

/-- The INPUT condition goes when no latch is left set (R177). -/
def State.settleInput (s : State) : State :=
  if allInputs.any fun i => (s.input i).latch.isSome then s else s.lower .input

/-- ACKNOWLEDGE of kind INPUT for an input in range, R177. The latch clears, its held action ends, and then
INPUT_RELEASED is queued (log 20). -/
def State.acknowledgeLatch (i : Fin 8) (s : State) : State × Answer :=
  match (s.input i).latch with
  | none => (s.settleInput, .ok [])
  | some a =>
    if s.levelHeld i then (s.settleInput, .no .stillActive)
    else
      let t := ((s.dropLatch i).actionEnded a s).notice .inputReleased i.val a.code 0
      (t.settleInput, .ok [])

/-- Re-establish one input, R178; `before` tells whether its held action was in force already and is not delivered
again. -/
def State.reestablish (before : Option State) (i : Fin 8) (s : State) : State :=
  match s.inputRec i with
  | some r =>
    if s.levelHeld i && (s.input i).latch.isNone then
      let t := s.putLatch i r.action 1
      match before with
      | some b => if b.held r.action then t else t.actionSet r.action s
      | none => t.actionSet r.action s
    else s
  | none => s

/-- Re-establish every input (R178), in ascending number, an order the spec does not give (log 39). -/
def State.reestablishAll (before : Option State) (s : State) : State := forEach allInputs (State.reestablish before) s

/-- Every latch clear, without notice or delivery (R178). -/
def State.dropLatches (s : State) : State := forEach allInputs State.dropLatch s

/-- An input is kept at a bank switch: its record is present in both banks with every field equal (R15). -/
def keptInput (old new : List Stored) (i : Fin 8) : Bool :=
  match inputIn old i, inputIn new i with
  | some a, some b => decide (a = b)
  | _, _ => false

/-- A latch that a bank switch does not keep is cleared, with INPUT_RELEASED, and its action ends (R15). -/
def State.switchLatch (old : List Stored) (i : Fin 8) (s : State) : State :=
  match (s.input i).latch with
  | some a =>
    if keptInput old s.records i then s
    else ((s.dropLatch i).actionEnded a s).notice .inputReleased i.val a.code 1
  | none => s

/-- The Input Latches' stage of a bank switch, R15: every release before the re-establishment. The ascending input number
is the model's order in both (log 39). -/
def State.switchInputs (old : List Stored) (s : State) : State :=
  (forEach allInputs (State.switchLatch old) s).reestablishAll none

end Sys2Proof.Machine
end

