-- ==== Sys2Proof/Machine/Commands.lean ====
section
/-! DEFINITION. The Command Path, Chapter 4: station SETs, resync, station override, echoes, echo misses and the virtual
functions. -/

namespace Sys2Proof.Machine

/-! ### Station SETs to field points, R56 to R59 -/

/-- The SET is forwardable, R56; in BYPASS every one is (R59). -/
def State.forwardable (s : State) (id : PointId) : Bool :=
  match s.point id with
  | none => true
  | some d =>
    match d.role, d.owner with
    | .sensor _, _ => true
    | .actuator _, some .station => true
    | .actuator _, _ => s.overrideInForce d

/-- The body of a REPLY HELD OWNED: the last commanded value, its origin and the last echoed value, with the codes of
R191 for none. -/
def heldBody (st : PointStatus) : List Byte :=
  s32 (match st.origin with
    | some _ => st.commanded.getD 0
    | none => 0) ++
  [match st.origin with
    | some o => byteOf o.code
    | none => 0xFF] ++
  s32 (match st.status with
    | some _ => st.value
    | none => 0)

/-- The queue's entry for a point is a job's (R57). -/
def jobQueued (q : List SendEntry) (id : PointId) : Bool := q.any fun e => decide (e.point = id ∧ e.origin ≠ .station)

/-- A station SET for a field identity, R56 to R59. -/
def State.fieldSet (id : PointId) (value : Int) (fade : Nat) (seq : Byte) (s : State) : State × Answer :=
  if !s.forwardable id then (s, ⟨.held, some .owned, heldBody (s.status id)⟩)
  else if !s.nodePresent id then (s, ⟨.held, some .absent, []⟩)
  else if s.queueFull id then (s, ⟨.held, some .queueFull, []⟩)
  else
    let t := if jobQueued (s.segment (pointSeg id)).queue id then s.wantResend id else s
    let v := s.envelope id value
    (t.place ⟨id, value, fade, .station, seq⟩, ⟨if v = value then .forwarded else .forwardedClamped, none, s32 v⟩)

/-! ### Resync, R61 -/

/-- A resync: the flag is set, and the owning job submits its current output at once. -/
def State.resync (id : PointId) (s : State) : State :=
  let t := s.wantResend id
  match (s.point id).bind (·.owner) with
  | some .climate => t.climateResync id
  | some .cover => t.coverResync id
  | some .lighting => t.lightResync id
  | _ => t

/-! ### Station override, R68 to R70 -/

/-- The points of a zone that allow override. -/
def State.overridable (s : State) (z : Fin 8) : List PointDef := s.points.filter fun d => d.override && d.zone == some z

/-- The entry is a job's, for one of the points. -/
def jobEntryFor (ids : List PointId) (e : SendEntry) : Bool := decide (e.origin ≠ .station ∧ e.point ∈ ids)

/-- Remove the job entries of the points from a send queue; each removed entry sets its point's flag (R32, R69). -/
def State.purgeQueue (g : Fin 4) (ids : List PointId) (s : State) : State :=
  let gone := (s.segment g).queue.filter (jobEntryFor ids)
  let t := s.modSegment g fun v => { v with queue := v.queue.filter fun e => !jobEntryFor ids e }
  forEach gone (fun e => State.wantResend e.point) t

/-- A zone's override is set on, R69; its supply points leave the awaiting set (R158). That the queued job entries go before
a supply is released, whose lamp SETs then find their places free, is a choice of the model (log 58). -/
def State.overrideOn (z : Fin 8) (s : State) : State :=
  let ids := (s.overridable z).map (·.id)
  let t := s.modZone z fun v => { v with override := true }
  let u := forEach allSegs (fun g => State.purgeQueue g ids) t
  forEach ids State.answered u

/-- Put a point in its place in a list in ascending point index. -/
def insertPoint (d : PointDef) : List PointDef → List PointDef
  | [] => [d]
  | e :: rest => if pointIndex d.id ≤ pointIndex e.id then d :: e :: rest else e :: insertPoint d rest

/-- The points in ascending point index. -/
def byIndex (l : List PointDef) : List PointDef := l.foldr insertPoint []

/-- The owner is a job. -/
def PointDef.jobOwned (d : PointDef) : Bool := d.owner.isSome && d.owner != some .station

/-- A zone's override is set off, with the resync of R70 in ascending point index. -/
def State.overrideOff (z : Fin 8) (s : State) : State :=
  let t := s.modZone z fun v => { v with override := false }
  forEach (byIndex ((s.overridable z).filter PointDef.jobOwned)) (fun d => State.resync d.id) t

/-- ZONE_OVERRIDE, R68. -/
def State.setOverride (z : Fin 8) (value : Int) (s : State) : State :=
  if value = 1 then (if (s.zone z).override then s else s.overrideOn z)
  else (if (s.zone z).override then s.overrideOff z else s)

/-- Every override off without resync (R68). -/
def State.overridesOff (s : State) : State := forEach allZones (fun z => State.modZone z fun v => { v with override := false }) s

/-! ### Virtual functions, R71 and R72 -/

/-- The code of dormant-pending and the mode in MODE_REQUEST's REPLY. -/
def State.modeBody (s : State) : List Byte :=
  [match s.mode with
    | some m => byteOf m.code
    | none => 0xFF, flagByte s.dormantPending]

/-- MODE_REQUEST, R167. -/
def State.modeSet (value : Int) (s : State) : State × Answer :=
  match ofCode allModes value.toNat with
  | some m =>
    let r := s.requestMode m 0
    (r.1, ⟨r.2.1, r.2.2, s32 value ++ r.1.modeBody⟩)
  | none => (s, .no .range)

/-- PLANT_CAPACITY, R116 and R119. -/
def State.capacitySet (value : Int) (s : State) : State × Answer :=
  ({ s with capacity := some value.toNat }.allocate, .ok (s32 value))

/-- SPLIT_POSITION, R155. -/
def State.splitSet (value : Int) (s : State) : State × Answer := (s.setSplit value.toNat, .ok (s32 value))

/-- ZONE_OVERRIDE, R68. -/
def State.overrideSet (z : Fin 8) (value : Int) (s : State) : State × Answer := (s.setOverride z value, .ok (s32 value))

/-- ZONE_TRIM, R72. -/
def State.trimSet (z : Fin 8) (value : Int) (s : State) : State × Answer :=
  (s.modZone z fun v => { v with trim := value }, .ok (s32 value))

/-- A virtual function acts on the value it took. -/
def State.virtualAct (f : VFun) (value : Int) (s : State) : State × Answer :=
  match f with
  | .mode => s.modeSet value
  | .capacity => s.capacitySet value
  | .split => s.splitSet value
  | .cueSelect src => s.cueSelect src value
  | .cueAdvance src => s.cueAdvance src value
  | .cover c => s.coverCommand c value
  | .override z => s.overrideSet z value
  | .trim z => s.trimSet z value

/-- A function of segment 7 with the value as sent: checks 1, 3 and 4 of R71 and the owner's action. -/
def State.virtualSet (f : VFun) (value : Int) (s : State) : State × Answer :=
  if s.runState = .bypass then (s, .no .notRunning)
  else
    match vvalue f value with
    | none => (s, .no .range)
    | some v => s.virtualAct f v

/-- A SET for segment 7 by its identity, R71. -/
def State.virtualAt (node chan : Nat) (value : Int) (s : State) : State × Answer :=
  if s.runState = .bypass then (s, .no .notRunning)
  else
    match vfun node chan with
    | none => (s, .no .unknown)
    | some f => s.virtualSet f value

/-- A taken SET, R25: the range check, the Command Path, or the virtual dispatch. Segments 8 to 15, which name nothing,
are refused RANGE with 4 to 6 (log 11). -/
def State.takeSet (h : TrunkHdr) (value : Int) (fade : Nat) (s : State) : State × Answer :=
  let seg := h.seg.toNat
  if (3 < seg ∧ seg ≠ 7) ∨ 30 < h.node.toNat ∨ 15 < h.chan.toNat then (s, .no .range)
  else if seg = 7 then s.virtualAt h.node.toNat h.chan.toNat value
  else s.fieldSet ⟨seg, h.node.toNat, h.chan.toNat⟩ value fade h.seq

/-! ### Echoes, R64 and R65 -/

/-- A status code that names no status is FAULT (R64). -/
def actStatusOf (b : Byte) : ActStatus := (ofCode allActStatus b.toNat).getD .fault

/-- A matched echo on a status record, Table 1-8. -/
def PointStatus.matched (st : PointStatus) (value : Int) (a : ActStatus) : PointStatus :=
  { st with value := value, status := some a, quality := if a = .fault then .suspect else .good, age := 0, misses := 0 }

/-- An unmatched echo on a status record, R65. -/
def PointStatus.unmatched (st : PointStatus) (value : Int) (a : ActStatus) : PointStatus :=
  { st with value := value, status := some a, late := satSucc 255 st.late }

/-- The definition of a point that is an actuator. -/
def State.actuatorAt (s : State) (id : PointId) : Option PointDef := (s.point id).filter PointDef.isActuator

/-- Tell the owning job of a matched echo, R64 step 4. -/
def State.tellEcho (d : PointDef) (applied : Int) (a : ActStatus) (origin : Owner) (s : State) : State :=
  match d.owner with
  | some .cover => s.coverEcho d.id applied a origin
  | some .lighting => s.lightEcho d.id origin
  | _ => s

/-- The pending entry an echo matches. -/
def State.echoEntry (s : State) (id : PointId) (seq : Byte) : Option PendEntry :=
  s.echoes.find? fun e => e.point = id ∧ e.fieldSeq = seq

/-- An ECHO handed to the Command Path, R64 and R65. -/
def State.takeEcho (id : PointId) (seq : Byte) (value : Int) (status : Byte) (s : State) : State :=
  let a := actStatusOf status
  match s.echoEntry id seq with
  | some e =>
    let s1 := { s with echoes := s.echoes.filter fun x => x.point ≠ id }
    let s2 := if (s.actuatorAt id).isSome then s1.modStatus id fun st => st.matched value a else s1
    let s3 := if e.origin = .station then s2.offer (.echo id e.trunkSeq value status) else s2
    match s.actuatorAt id with
    | some d => s3.tellEcho d value a e.origin
    | none => s3
  | none => if (s.actuatorAt id).isSome then s.modStatus id fun st => st.unmatched value a else s

/-! ### Echo misses, R66 -/

/-- Tell the owning job of an echo miss, R66. -/
def State.tellMiss (d : PointDef) (origin : Owner) (s : State) : State :=
  match d.owner with
  | some .cover => s.coverMiss d.id origin
  | some .lighting => s.lightMiss d.id origin
  | _ => s

/-- The miss of an actuator's status record: the count, LOST and POINT_LOST at 3 (R66). -/
def State.countMiss (e : PendEntry) (s : State) : State :=
  let n := (s.status e.point).misses
  let t := s.modStatus e.point fun st => { st with misses := min (n + 1) 3 }
  if n = 2 then
    (t.modStatus e.point fun st => { st with quality := .lost }).notice .pointLost (pointIndex e.point) 3 e.value
  else t

/-- The expiry of a pending entry's echo timer, R66. -/
def State.echoExpired (id : PointId) (s : State) : State :=
  match s.echoes.find? fun e => e.point = id with
  | none => s
  | some e =>
    let s1 := { s with echoes := s.echoes.filter fun x => x.point ≠ id }
    match s.actuatorAt id with
    | none => s1
    | some d =>
      let s2 := s1.countMiss e
      let s3 := if e.origin = .station then s2 else s2.wantResend id
      s3.tellMiss d e.origin

end Sys2Proof.Machine
end

