-- ==== Sys2Proof/Machine/Samples.lean ====
section
/-! DEFINITION. The Sample Path, Chapter 3: judgement, forward policies and deliveries, and the aging sweep of R19. -/

namespace Sys2Proof.Machine

/-- A status code that names no status is FAULT (R41). -/
def sensorStatusOf (b : Byte) : SensorStatus := (ofCode allSensorStatus b.toNat).getD .fault

/-- The quantity is a relative humidity (R42). -/
def PointDef.isRh (d : PointDef) : Bool := decide (d.role = .sensor .airRh ∨ d.role = .sensor .outdoorRh)

/-- The judged value, R42. -/
def judgedValue (d : PointDef) (value : Int) : Int := if d.isRh && decide (1000 < value) then 1000 else value

/-- The quality byte of a sample for a defined sensor, R43. -/
def judgeSample (d : PointDef) (value : Int) (st : SensorStatus) : QualityByte :=
  let v := judgedValue d value
  if st ≠ .ok then .suspectStatus
  else if d.isRh && decide (v < 0) then .suspectRange
  else if v < d.low ∨ d.high < v then .suspectRange
  else .good

/-- A judged sample on a status record, Table 1-7. -/
def PointStatus.judged (st : PointStatus) (good : Bool) (value : Int) : PointStatus :=
  if good then { st with quality := .good, value := value, age := 0 } else { st with quality := .suspect }

/-- The forward decision, R45 to R47, from the status record before the sample; under EVERY_N the counter has already
been raised. NONE keeps every sample (R45), also after an eviction, where R50 would have it offered (log 44). -/
def forwardDue (d : PointDef) (st : PointStatus) (value : Int) : Bool :=
  let forced := st.missed || decide (st.quality = .unknown ∨ st.quality = .lost)
  match d.policy with
  | .all => true
  | .none => false
  | .everyN => forced || decide (d.n ≤ st.counter + 1)
  | .onChange => forced || decide (d.delta ≤ (value - st.forwarded).natAbs) || decide (d.stale ≤ st.forwardAge)

/-- The EVERY_N counter after a sample, R46. -/
def counterAfter (d : PointDef) (st : PointStatus) (due : Bool) : Nat :=
  if d.policy = .everyN then (if due then 0 else st.counter + 1) else st.counter

/-- The forward bookkeeping after an offer, R45. -/
def PointStatus.offered (st : PointStatus) (forwarded : Bool) (value : Int) : PointStatus :=
  if forwarded then { st with forwarded := value, forwardAge := 0, missed := false } else { st with missed := true }

/-- Deliver a judged sample to its consumers, R53 and R54. -/
def State.deliverSample (d : PointDef) (before : Quality) (good : Bool) (value : Int) (s : State) : State :=
  let after : Quality := if good then .good else .suspect
  match d.role with
  | .sensor .occupancy => s.deliverOccupancy d (good && decide (0 < value)) (decide (before ≠ after))
  | .sensor .coverPosition => s.deliverPosition d.id after (some value)
  | _ => s

/-- A SAMPLE for a defined sensor, R44. -/
def State.sensorSample (d : PointDef) (seq : Byte) (value : Int) (status : Byte) (s : State) : State :=
  let st := s.status d.id
  let q := judgeSample d value (sensorStatusOf status)
  let v := judgedValue d value
  let good := decide (q = .good)
  let due := forwardDue d st v
  let s1 := s.modStatus d.id fun x => { x.judged good v with counter := counterAfter d st due }
  let s2 :=
    if due then
      let r := s1.offerSample d.id seq value status q
      r.1.modStatus d.id fun x => x.offered r.2 v
    else s1
  s2.deliverSample d st.quality good v

/-- A SAMPLE handed to the Sample Path, R41 and R55. -/
def State.takeSample (id : PointId) (seq : Byte) (value : Int) (status : Byte) (s : State) : State :=
  match s.point id with
  | none => (s.offerSample id seq value status .unlisted).1
  | some d =>
    if d.isSensor then s.sensorSample d seq value status else (s.offerSample id seq value status .notSensor).1

/-! ### Changes of quality that no sample makes, R53 and R54 -/

/-- Deliver a change of a point's quality to its consumer. -/
def State.deliverQuality (d : PointDef) (after : Quality) (s : State) : State :=
  match d.role with
  | .sensor .occupancy => s.deliverOccupancy d false true
  | .sensor .coverPosition => s.deliverPosition d.id after none
  | _ => s

/-- Deliver the changes between two Point Status tables, in the order of the definitions, which the spec does not give
(logs 15, 62). -/
def State.deliverChanges (before s : State) : State :=
  forEach s.points (fun d t =>
    let q := (s.status d.id).quality
    if (before.status d.id).quality = q then t else t.deliverQuality d q) s

/-! ### The aging sweep, R19 -/

/-- The saturation limit of the ages, Table 1-6. -/
def ageLimit : Nat := 65535

/-- One record of the sweep. -/
def PointStatus.aged (st : PointStatus) (d : PointDef) : PointStatus :=
  let ages := decide (st.quality = .good ∨ st.quality = .suspect ∨ st.quality = .stale)
  let age := if ages then satSucc ageLimit st.age else st.age
  { st with age := age, quality := if st.quality = .good ∧ d.stale < age then .stale else st.quality
            forwardAge := if d.isSensor then satSucc ageLimit st.forwardAge else st.forwardAge }

/-- Apply a function of the definition to every record of a defined point. -/
def State.mapTable (f : PointDef → PointStatus → PointStatus) (s : State) : State :=
  { s with table := s.table.map fun r =>
      match s.point r.id with
      | some d => { r with st := f d r.st }
      | none => r }

/-- The aging sweep with its deliveries, R19 and R20. -/
def State.agingSweep (s : State) : State := State.deliverChanges s (s.mapTable fun d st => st.aged d)

end Sys2Proof.Machine
end

