-- ==== Sys2Proof/Machine/Link.lean ====
section
/-! DEFINITION. The Segment Masters, Chapter 2: rounds and roll calls, poll exchanges, the presence table, node loss and
the sending of queue heads. -/

namespace Sys2Proof.Machine

/-! ### Rounds, R28 -/

/-- The poll a Segment Master makes next: the address, whether it is a roll call, and the segment's round state once it
is made. -/
structure NextPoll where
  node : Fin 31
  rollCall : Bool
  roundCounter : Fin 4
  roundPos : Nat
  pointer : Fin 31
deriving DecidableEq, Repr

def allNodes : List (Fin 31) := (List.range 31).map (Fin.ofNat 31)

/-- The next PRESENT node of the round from a position, in ascending address. -/
def nextPresent (g : Segment) (pos : Nat) : Option (Fin 31) :=
  allNodes.find? fun n => decide (pos ≤ n.val) && decide (g.nodes[n].state = .present)

/-- The first non-PRESENT address at or above the pointer, wrapping from 30 to 0. -/
def nextAbsent (g : Segment) (pointer : Fin 31) : Option (Fin 31) :=
  (allNodes.map fun n => pointer + n).find? fun n => decide (g.nodes[n].state ≠ .present)

/-- The next poll of a segment, R28. `fuel` bounds the empty rounds passed over: every fourth round end calls an address,
unless all are PRESENT and the round is not empty. -/
def nextPollFrom (g : Segment) : Nat → Fin 4 → Nat → Option NextPoll
  | 0, _, _ => none
  | fuel + 1, counter, pos =>
    match nextPresent g pos with
    | some n => some ⟨n, false, counter, n.val + 1, g.rollCall⟩
    | none =>
      let counter' := counter + 1
      if counter' = 0 then
        match nextAbsent g g.rollCall with
        | some n => some ⟨n, true, counter', 0, n + 1⟩
        | none => nextPollFrom g fuel counter' 0
      else nextPollFrom g fuel counter' 0

/-- The next poll from the segment's round state. -/
def nextPoll (g : Segment) : Option NextPoll := nextPollFrom g 5 g.roundCounter g.roundPos

/-- The POLL frame to a node, R22; its channel field, to which the spec gives no value, is 0 (log 43). -/
def pollFrame (seg : Fin 4) (n : Fin 31) : Frame :=
  { addr := 0, kind := kindPoll, seg := BitVec.ofNat 4 seg.val, service := false, more := false, node := byteOf n.val
    chan := 0, seq := 0, payload := [] }

/-- Make the next poll when it is of the kind the command names and no exchange is open (R28, R29; log 12). -/
def State.pollSegment (seg : Fin 4) (rollCall : Bool) (s : State) : State :=
  let g := s.segment seg
  match g.exchange, nextPoll g with
  | none, some p =>
    if p.rollCall = rollCall then
      s.setSegment seg
        { g with roundCounter := p.roundCounter, roundPos := p.roundPos, rollCall := p.pointer
                 exchange := some ⟨p.node, rollCall, false, 0, false⟩, lastFrame := some (pollFrame seg p.node) }
    else s
  | _, _ => s

/-! ### Sending the queue head, R39, R40, R62, R63 -/

/-- The SET frame of a queue entry, R22. -/
def setFrame (seg : Fin 4) (seq : Byte) (e : SendEntry) : Frame :=
  { addr := 0, kind := kindSet, seg := BitVec.ofNat 4 seg.val, service := false, more := false
    node := byteOf e.point.node, chan := byteOf e.point.chan, seq := seq, payload := s32 e.value ++ u16 e.fade }

/-- The head of a queue can be sent: the Pending Echo List has room or holds its point (R39). -/
def State.canSend (s : State) (e : SendEntry) : Bool :=
  decide (s.echoes.length < echoLimit) || s.echoes.any fun x => decide (x.point = e.point)

/-- Create the point's pending entry, or supersede the older one in place (R63). -/
def putPending (p : PendEntry) (l : List PendEntry) : List PendEntry :=
  if l.any fun x => decide (x.point = p.point) then l.map fun x => if x.point = p.point then p else x else l ++ [p]

/-- Send the head of a segment's queue when it can be sent (R39). -/
def State.sendHead (seg : Fin 4) (s : State) : State :=
  let g := s.segment seg
  match g.queue with
  | [] => s
  | e :: rest =>
    if !s.canSend e then s
    else
      let p : PendEntry :=
        { point := e.point, fieldSeq := g.fieldSeq, value := e.value, origin := e.origin, trunkSeq := e.trunkSeq
          timer := Timer.idle.start echoPair }
      let t := s.setSegment seg
        { g with queue := rest, fieldSeq := g.fieldSeq + 1, lastFrame := some (setFrame seg g.fieldSeq e) }
      let u := { t with echoes := putPending p t.echoes }
      if (u.actuatorAt e.point).isSome then
        u.modStatus e.point fun st => { st with commanded := some e.value, origin := some e.origin }
      else u

/-! ### Node loss, R32 -/

/-- segment × 32 + node. -/
def nodeSubject (seg : Fin 4) (n : Fin 31) : Nat := seg.val * 32 + n.val

/-- The point lies on the node. -/
def onNode (seg : Fin 4) (n : Fin 31) (id : PointId) : Bool := decide (id.seg = seg.val ∧ id.node = n.val)

def State.modNode (seg : Fin 4) (n : Fin 31) (f : Presence → Presence) (s : State) : State :=
  s.modSegment seg fun g => { g with nodes := g.nodes.set n (f g.nodes[n]) }

/-- Remove a node's entries from the Pending Echo List (R32, R34). -/
def State.prunePending (seg : Fin 4) (n : Fin 31) (s : State) : State :=
  { s with echoes := s.echoes.filter fun e => !onNode seg n e.point }

/-- Remove a node's entries from its segment's queue; a job's entry sets its point's flag (R32). -/
def State.pruneQueue (seg : Fin 4) (n : Fin 31) (s : State) : State :=
  let gone := (s.segment seg).queue.filter fun e => onNode seg n e.point && decide (e.origin ≠ .station)
  let t := s.modSegment seg fun g => { g with queue := g.queue.filter fun e => !onNode seg n e.point }
  forEach gone (fun e => State.wantResend e.point) t

/-- The LIGHTING supply points on a node leave their awaiting sets (R158), in the order of their definitions, so that the
POWERING zones they empty are released, and their lamps sent, in that order; the spec does not give it (log 65). -/
def State.answerNode (seg : Fin 4) (n : Fin 31) (s : State) : State :=
  forEach ((s.points.filter fun d => onNode seg n d.id).map (·.id)) State.answered s

/-- A node becomes LOST, R32; the deliveries of its points' changes come last (log 14). -/
def State.loseNode (seg : Fin 4) (n : Fin 31) (s : State) : State :=
  let s1 := s.mapTable fun d st => if onNode seg n d.id then { st with quality := .lost } else st
  let s2 := s1.notice .nodeLost (nodeSubject seg n) 3 0
  let s3 := (s2.pruneQueue seg n).prunePending seg n
  (State.deliverChanges s s3).answerNode seg n

/-- A missed answer to a regular poll, R32. -/
def State.countNodeMiss (seg : Fin 4) (n : Fin 31) (s : State) : State :=
  let misses := min ((s.segment seg).nodes[n].misses + 1) 3
  let t := (s.modNode seg n fun p => { p with misses := misses, state := if misses = 3 then .lost else p.state }).modSegment
    seg fun g => { g with missCount := satSucc countLimit g.missCount }
  if misses = 3 then t.loseNode seg n else t

/-! ### Completing an exchange, R29, R32 -/

def State.closeExchange (seg : Fin 4) (s : State) : State := s.modSegment seg fun g => { g with exchange := none }

/-- The exchange of a segment is complete: the regular poll's outcome for its node, the deliveries to the Mode Controller,
and then the head of the queue (R32, R39). -/
def State.completeExchange (seg : Fin 4) (x : Exchange) (s : State) : State :=
  let t := s.closeExchange seg
  let u :=
    if x.rollCall then t
    else if x.answered then t.modNode seg x.node fun p => { p with misses := 0 }
    else t.countNodeMiss seg x.node
  (settle s u).sendHead seg

/-! ### Frames of an answer, R29 to R31, R36 -/

/-- A bad frame's count, R21. -/
def State.countBad (seg : Fin 4) (s : State) : State :=
  s.modSegment seg fun g => { g with crcCount := satSucc countLimit g.crcCount }

/-- A bad frame on a segment: counted, and the end of the answer when one has begun (R29, R31). -/
def State.badFrame (seg : Fin 4) (s : State) : State :=
  let t := s.countBad seg
  match (s.segment seg).exchange with
  | some x => if x.answered then t.completeExchange seg x else t
  | none => t

/-- A valid frame that is not END: a frame of the polled node's answer is taken, the fifth is discarded and ends the
answer, and any other is a bad frame (R29, R30). `handle` hands the frame on. -/
def State.takeFrame (seg : Fin 4) (node : Byte) (handle : Exchange → State → State) (s : State) : State :=
  match (s.segment seg).exchange with
  | none => s.badFrame seg
  | some x =>
    if node.toNat ≠ x.node.val then s.badFrame seg
    else if 4 ≤ x.frames then (s.countBad seg).completeExchange seg x
    else
      let y := { x with answered := true, frames := x.frames + 1 }
      let t := s.modSegment seg fun g => { g with exchange := some y }
      settle t (handle y t)

/-- A SAMPLE or ECHO is handed on, but not in a roll-call answer before its HELLO (R36). -/
def handOn (x : Exchange) (f : State → State) (s : State) : State := if x.rollCall && !x.helloSeen then s else f s

/-- The segment-side identity of a frame: the master's own segment (R30). -/
def segmentPoint (seg : Fin 4) (node chan : Byte) : PointId := ⟨seg.val, node.toNat, chan.toNat⟩

/-! ### HELLO, R34 and R35 -/

/-- The code of a node's prior state in NODE_JOINED. -/
def priorCode : NodeState → Int
  | .absent => 0
  | .lost => 1
  | .present => 2

/-- The record of an actuator whose node announced itself, Table 1-8. -/
def PointStatus.rejoined (st : PointStatus) : PointStatus := { st with quality := .unknown, misses := 0 }

/-- A HELLO from the polled node, R34 and R35. Its job-owned actuators are resynced in the order of the definitions, each
marked at its own turn: an order the spec does not give (log 42). -/
def State.takeHello (seg : Fin 4) (n : Fin 31) (classCode : Byte) (s : State) : State :=
  let prior := (s.segment seg).nodes[n].state
  let s1 := s.modNode seg n fun _ => { state := .present, misses := 0, joined := true }
  let s2 := s1.notice .nodeJoined (nodeSubject seg n) (priorCode prior) classCode.toNat
  let actuators := s.points.filter fun d => onNode seg n d.id && d.isActuator
  let s3 := s2.mapTable fun d st => if onNode seg n d.id && d.isActuator then st.rejoined else st
  let s4 := s3.prunePending seg n
  let s5 := s4.modSegment seg fun g => { g with exchange := g.exchange.map fun x => { x with helloSeen := true } }
  forEach (actuators.filter PointDef.jobOwned) (fun d => State.resync d.id) s5

/-- An END frame or the silence after a frame ends the answer, R29. -/
def State.endAnswer (seg : Fin 4) (s : State) : State :=
  match (s.segment seg).exchange with
  | some x => s.completeExchange seg { x with answered := true }
  | none => s

end Sys2Proof.Machine
end

