-- ==== Sys2Proof/Machine/Banks.lean ====
section
/-! DEFINITION. The definition banks, Chapter 1: the load protocol, the cross-record checks and the bank switch. -/

namespace Sys2Proof.Machine

/-! ### Loading, R5 to R9 -/

/-- Set the protocol error, R184. -/
def State.protocolFault (s : State) : State := { s with protocolError := true }

/-- Abandon the load in progress, R6. -/
def State.abandonLoad (why : Reason) (record : Int) (s : State) : State :=
  match s.load with
  | none => s
  | some l =>
    (({ s with load := none }.setBank l.bank Bank.blank).raise .loadAbandoned).notice .loadAbandoned l.bank.val why.code
      record

/-- A bank number 0 or 1. -/
def bankOf (b : Byte) : Option (Fin 2) := if b.toNat < 2 then some (Fin.ofNat 2 b.toNat) else none

/-- LOAD_BEGIN, R7. -/
def State.loadBegin (b : Byte) (count : Nat) (s : State) : State × Answer :=
  match bankOf b with
  | none => (s, .no .range)
  | some k =>
    if count < 2 ∨ 280 < count then (s, .no .range)
    else if (s.bank k).state = .active then (s, .no .bankActive)
    else
      let why : Reason :=
        match s.load with
        | some l => if l.bank = k then .restarted else .replaced
        | none => .restarted
      let t := (s.abandonLoad why (-1)).setBank k { state := .loading, records := [] }
      ({ t with load := some { bank := k, declared := count, expected := 0, accepted := 0 } }, .ok [])

/-- LOAD_RECORD refused BAD_FIELD with the offset of the first field that failed. -/
def badField (o : Byte) : Answer := ⟨.refused, some .badField, [o]⟩

/-- The bank holds 256 point definitions, or the declared count is reached (R8 step 4). -/
def loadFull (l : LoadCtx) (rs : List Stored) (r : Record) : Bool :=
  (match r with
    | .point _ => decide (256 ≤ (pointsIn rs).length)
    | _ => false) || decide (l.accepted = l.declared)

/-- Store a record, R8 step 5. -/
def State.storeRecord (l : LoadCtx) (number : Nat) (r : Record) (s : State) : State :=
  let b := s.bank l.bank
  let t := s.setBank l.bank { b with records := b.records ++ [⟨number, r⟩] }
  { t with load := some { l with expected := l.expected + 1, accepted := l.accepted + 1 } }

/-- LOAD_RECORD, R8. A kind that names no kind has no failing offset: a free value (log 25). -/
def State.loadRecord (number : Nat) (kind : Byte) (body : List Byte) (s : State) : State × Answer :=
  match s.load with
  | none => (s.protocolFault, .no .sequence)
  | some l =>
    if number ≠ l.expected then (s.protocolFault.abandonLoad .sequence l.expected, .no .sequence)
    else if (recordSize kind.toNat).isNone then
      ({ s with freeCount := s.freeCount + 1 }, badField (Config.freeByte s.freeCount))
    else
      match decodeRecord kind.toNat body with
      | .error o => (s, badField (byteOf o))
      | .ok r =>
        if loadFull l (s.bank l.bank).records r then (s, .no .full) else (s.storeRecord l number r, .ok [])

/-! ### Cross-record checks, R10 and Table 1-4 -/

/-- The first record whose key `limit` earlier records share. -/
def firstRepeat {κ : Type} [DecidableEq κ] (key : Record → Option κ) (limit : Nat) : List κ → List Stored → Option Int
  | _, [] => none
  | seen, r :: rest =>
    match key r.record with
    | none => firstRepeat key limit seen rest
    | some k => if limit ≤ seen.count k then some r.number else firstRepeat key limit (seen ++ [k]) rest

/-- The first record that fails a test. -/
def firstBad (bad : Record → Bool) (rs : List Stored) : Option Int := (rs.find? fun r => bad r.record).map (·.number)

/-- Checks 1 and 2: exactly one record of a kind. -/
def exactlyOne (isKind : Record → Bool) (rs : List Stored) : Option Int :=
  match rs.filter fun r => isKind r.record with
  | [] => some (-1)
  | [_] => none
  | _ :: r :: _ => some r.number

def Record.isHall : Record → Bool
  | .hall _ => true
  | _ => false

def Record.isPlant : Record → Bool
  | .plant _ => true
  | _ => false

def Record.pointKey : Record → Option PointId
  | .point d => some d.id
  | _ => none

def Record.stripKey : Record → Option Nat
  | .point d => if d.onStrip then some d.strip else none
  | _ => none

/-- A kind number and an index. -/
def Record.indexKey : Record → Option (Nat × Nat)
  | .zone r => some (1, r.index.val)
  | .cover r => some (2, r.index.val)
  | .input r => some (3, r.index.val)
  | _ => none

def Record.quantityKey : Record → Option (Quantity × Option (Fin 8))
  | .point d =>
    match d.role with
    | .sensor q => some (q, d.zone)
    | .actuator _ => none
  | _ => none

/-- The identity is a defined point of the role, for the cover and its zone (check 7). -/
def coverPoint (rs : List Stored) (r : CoverRec) (role : Role) (id : PointId) : Bool :=
  match pointIn rs id with
  | some d => decide (d.role = role ∧ d.coverNo = r.index.val ∧ d.zone = some r.zoneNo)
  | none => false

/-- Check 7 on one record. -/
def badCover (rs : List Stored) : Record → Bool
  | .cover r =>
    r.inUse && !((zoneIn rs r.zoneNo).isSome && coverPoint rs r (.actuator .coverDrive) r.drive &&
      coverPoint rs r (.sensor .coverPosition) r.position && coverPoint rs r (.actuator .purgeFan) r.fan)
  | _ => false

/-- Check 8 on one record. -/
def badPlant : Record → Bool
  | .plant r => !([0, 1, 2, 3].all fun g => decide (g ∈ r.order))
  | _ => false

/-- Check 9 on one record. -/
def badHall : Record → Bool
  | .hall r => decide (r.supplyOff.prescale * r.supplyOff.count < 61)
  | _ => false

/-- Check 10 on one record. -/
def badZone : Record → Bool
  | .zone r => r.inUse && (decide (r.setMax < r.setMin) || decide (r.hpOn ≤ r.hpOff))
  | _ => false

/-- The checks of Table 1-4 in their order: the offending record of each, when it fails. -/
def crossChecks (rs : List Stored) : List (Option Int) :=
  [ exactlyOne Record.isHall rs, exactlyOne Record.isPlant rs, firstRepeat Record.pointKey 1 [] rs,
    firstRepeat Record.stripKey 1 [] rs, firstRepeat Record.indexKey 1 [] rs, firstRepeat Record.quantityKey 4 [] rs,
    firstBad (badCover rs) rs, firstBad badPlant rs, firstBad badHall rs, firstBad badZone rs ]

/-- The number of the first check that fails, from `n`, with its offending record. -/
def firstCheck : Nat → List (Option Int) → Option (Nat × Int)
  | _, [] => none
  | n, some r :: _ => some (n, r)
  | n, none :: rest => firstCheck (n + 1) rest

/-- The first failed cross-record check, R10. -/
def failedCheck (rs : List Stored) : Option (Nat × Int) := firstCheck 1 (crossChecks rs)

/-- LOAD_END, R9. -/
def State.loadEnd (s : State) : State × Answer :=
  match s.load with
  | none => (s.protocolFault, .no .sequence)
  | some l =>
    if l.accepted ≠ l.declared then (s.abandonLoad .count (-1), .no .count)
    else
      match failedCheck (s.bank l.bank).records with
      | some (n, r) => (s.abandonLoad .table r, ⟨.refused, some .badTable, byteOf n :: s16 r⟩)
      | none =>
        let t := s.setBank l.bank { s.bank l.bank with state := .ready }
        ({ t with load := none }, .ok [])

/-! ### The bank switch, R11 to R15 -/

/-- A new point matches an old one, R12. -/
def matchedPoint (old : List Stored) (d : PointDef) : Bool :=
  match pointIn old d.id with
  | some o => decide (o.role = d.role)
  | none => false

/-- A record carried to a new definition, R12. -/
def PointStatus.carried (st : PointStatus) (d : PointDef) : PointStatus :=
  { st with counter := 0, quality := if st.quality = .good ∧ d.stale < st.age then .stale else st.quality }

/-- The Point Status table of the new bank, R12. -/
def carriedTable (old new : List Stored) (t : List StatusRow) : List StatusRow :=
  (pointsIn new).map fun d =>
    ⟨d.id, if matchedPoint old d then (((statusIn t d.id).getD PointStatus.unknown).carried d) else PointStatus.unknown⟩

/-- A pending entry stays over the switch, R12; an entry of a point that only becomes defined stays too (log 30). -/
def keptPending (old new : List Stored) (e : PendEntry) : Bool :=
  match pointIn old e.point, pointIn new e.point with
  | none, _ => true
  | some _, none => false
  | some a, some b => decide (a.owner = b.owner)

/-- The switch changes the quality of a point, or starts it UNKNOWN (R20). -/
def State.switchChanged (old : List Stored) (before s : State) (d : PointDef) : Bool :=
  !matchedPoint old d || decide ((before.status d.id).quality ≠ (s.status d.id).quality)

/-- The changes of OCCUPANCY points that the switch makes reach their zones (R53), in the order of the new bank's
definitions (log 62). A zone that such a point leaves is not re-examined, a choice of the model (log 51). -/
def State.switchOccupancy (old : List Stored) (before s : State) : State :=
  forEach s.points (fun d t =>
    if d.role = .sensor .occupancy ∧ before.switchChanged old s d then t.deliverOccupancy d false true else t) s

/-- The changes of COVER_POSITION points that the switch makes reach their covers (R54), after the covers' stage (log 34), in
the order of the new bank's definitions, which the spec does not give (log 62). -/
def State.switchPositions (old : List Stored) (before s : State) : State :=
  forEach s.points (fun d t =>
    if d.role = .sensor .coverPosition ∧ before.switchChanged old s d then
      t.deliverPosition d.id (s.status d.id).quality none
    else t) s

/-- The first stage, R12: the table, the lamp records and the Pending Echo List. -/
def State.switchPoints (old : List Stored) (s : State) : State :=
  { s with table := carriedTable old s.records s.table, lamps := carriedLamps s.records s.lamps
           echoes := s.echoes.filter (keptPending old s.records) }

/-- A zone leaving use, R13 and R97. -/
def State.leaveZone (z : Fin 8) (s : State) : State :=
  let v := s.zone z
  let t := s.setZone z
    { v with request := 0, occupied := false, risk := false, evalTimer := v.evalTimer.stop, holdTimer := v.holdTimer.stop }
  if v.risk then t.notice .condensationClear z.val v.margin v.dew else t

/-- A zone at the switch before the Arbiter's pass, R13: a running evaluation timer is restarted when the period has
changed (log 31). -/
def State.switchZone (old : List Stored) (z : Fin 8) (s : State) : State :=
  match zoneIn old z, s.zoneRec z with
  | some a, some b =>
    if a.period ≠ b.period ∧ (s.zone z).evalTimer.running then
      s.modZone z fun v => { v with evalTimer := v.evalTimer.start ⟨1, b.period⟩ }
    else s
  | some _, none => s.leaveZone z
  | none, some _ => s.modZone z fun v => { Zone.start with trim := v.trim, override := v.override }
  | none, none => s

/-- A zone entering use after the Arbiter's pass, R13. -/
def State.enterZone (old : List Stored) (z : Fin 8) (s : State) : State :=
  if (zoneIn old z).isNone ∧ (s.zoneRec z).isSome then
    let t := s.examineOccupied z
    if t.mode = some .dormant then t else t.evaluateNow z
  else s

/-- The second stage, R13. R13 gives the ascending order to the zones entering use alone; that of the zones leaving use is
the model's (log 41). -/
def State.switchZones (old : List Stored) (s : State) : State :=
  let t := (forEach allZones (State.switchZone old) s).loadPlant.allocate
  forEach allZones (State.enterZone old) t

/-- SET 0 to an old purge fan point that the new bank defines with owner COVER (R14). -/
def State.stopOldFan (fan : PointId) (s : State) : State :=
  if (s.point fan).bind (·.owner) = some .cover then s.submit .cover fan 0 0 else s

/-- A cover at the switch, R14. -/
def State.switchCover (old : List Stored) (c : Fin 6) (s : State) : State :=
  match coverIn old c, s.coverRec c with
  | some a, some b =>
    if a.drive = b.drive then
      if (s.cover c).purging ∧ a.fan ≠ b.fan then (s.stopOldFan a.fan).submit .cover b.fan 1 0 else s
    else (if (s.cover c).purging then s.stopOldFan a.fan else s).deriveCover c b
  | some a, none => (if (s.cover c).purging then s.stopOldFan a.fan else s).setCover c Cover.blank
  | none, some b => s.deriveCover c b
  | none, none => s

/-- The third stage, R14; the covers in ascending number, an order the spec does not give (log 40). -/
def State.switchCovers (old : List Stored) (s : State) : State :=
  forEach allZones State.formFloors (forEach allCovers (State.switchCover old) s)

/-- A bank switch that is taken, R11 to R15. The lamp records are those of the new strip from the first stage on, and the
supply machines are rebuilt in the last; an evacuation that ends or starts with the inputs finds both so (log 47). -/
def State.takeSwitch (b former : Fin 2) (s : State) : State :=
  let old := s.records
  let s1 := ((s.setBank former { s.bank former with state := .ready }).setBank b { s.bank b with state := .active })
  let s2 := { s1 with active := some b }.notice .bankSwitched b.val former.val 0
  let s3 := s2.switchPoints old
  let s4 := (State.switchOccupancy old s s3).switchZones old
  let s5 := State.switchPositions old s (s4.switchCovers old)
  (s5.switchInputs old).switchLighting old

/-- BANK_SWITCH, R11. -/
def State.bankSwitch (b : Byte) (s : State) : State × Answer :=
  match bankOf b with
  | none => (s, .no .range)
  | some k =>
    match s.active with
    | none => (s, .no .notRunning)
    | some former =>
      if s.runState ≠ .running then (s, .no .notRunning)
      else if (s.bank k).state ≠ .ready then (s, .no .bankState)
      else if s.coverMoves then (s, .no .busy)
      else (s.takeSwitch k former, .ok [])

end Sys2Proof.Machine
end

