-- ==== Sys2Proof/Machine/Manage.lean ====
section
/-! DEFINITION. GO, HALT, CLEAR, ACKNOWLEDGE and the requests of the palette and the loops (Chapters 9 and 11). -/

namespace Sys2Proof.Machine

/-! ### GO, R180 -/

/-- The UNKNOWN table of a bank, R16. -/
def freshTable (rs : List Stored) : List StatusRow := (pointsIn rs).map fun d => ⟨d.id, PointStatus.unknown⟩

/-- Stage 1 of GO. -/
def State.goForms (s : State) : State :=
  let rs := s.records
  { s with table := freshTable rs, zones := Vector.replicate 8 Zone.start, outdoor := Outdoor.blank
           lamps := freshLamps rs, supplies := freshSupplies rs, sourceA := Source.stopped, sourceB := Source.stopped
           split := 96, dormantPending := false, watch := Timer.idle, covers := Vector.replicate 6 Cover.blank }.putMode
    .staffed 6

/-- Examine every zone's occupied flag, then evaluate every in-use zone and start its timer (R180 stage 6). -/
def State.startZones (s : State) : State :=
  forEach allZones State.evaluateNow (forEach allZones State.examineOccupied s)

/-- A GO that is taken, R180. -/
def State.takeGo (b : Fin 2) (s : State) : State :=
  let s0 := { s.setBank b { s.bank b with state := .active } with active := some b, runState := .running }
  let s1 := s0.goForms.deriveCovers
  let s2 := s1.loadPlant.noRequests
  let s3 := s2.dropLatches.reestablishAll none
  let s4 := s3.allocate.startZones
  { s4 with silence := s4.silence.start silencePair }

/-- GO, R180. -/
def State.go (b : Byte) (s : State) : State × Answer :=
  match bankOf b with
  | none => (s, .no .range)
  | some k =>
    if s.runState ≠ .bypass then (s, .no .state)
    else if (s.bank k).state ≠ .ready then (s, .no .bankState)
    else (s.takeGo k, .ok [])

/-! ### HALT, R181 -/

/-- Each RUNNING purge has its fan submitted SET 0 (R140). -/
def State.haltFan (c : Fin 6) (s : State) : State :=
  match s.coverRec c with
  | some r => if (s.cover c).purging then s.submit .cover r.fan 0 0 else s
  | none => s

/-- The ACTIVE bank becomes READY. -/
def State.idleBank (s : State) : State :=
  match s.active with
  | some b => { s.setBank b { s.bank b with state := .ready } with active := none }
  | none => s

/-- A HALT that is taken, R181; the covers in ascending number (log 40). The purge fans' SET 0 are submitted while the
overrides are still as they were, an order R140, R70 and R181 do not give (log 59). -/
def State.takeHalt (s : State) : State :=
  let t := ((forEach allCovers State.haltFan s).dropLatches).idleBank
  { t with covers := Vector.replicate 6 Cover.blank, zones := Vector.replicate 8 Zone.start, outdoor := Outdoor.blank
           capacity := none, priority := [], echoes := [], sourceA := { playing := none, hold := t.sourceA.hold.stop }
           sourceB := { playing := none, hold := t.sourceB.hold.stop }, split := 96, lamps := []
           supplies := Vector.replicate 8 none, mode := none, dormantPending := false, watch := t.watch.stop, table := []
           silence := t.silence.stop, runState := .bypass }

/-- HALT, R181. -/
def State.halt (s : State) : State × Answer :=
  if s.runState = .bypass then (s, .no .state)
  else if s.coverMoves then (s, .no .busy)
  else (s.takeHalt, .ok [])

/-! ### CLEAR, R189 and R190 -/

/-- A segment at CLEAR: its queue and counts emptied, every PRESENT node newly joined (R189). -/
def Segment.cleared (g : Segment) : Segment :=
  { g with queue := [], crcCount := 0, missCount := 0
           nodes := mapVector (fun p => if p.state = .present then { p with joined := true } else p) g.nodes }

/-- CLEAR in every run state, R189. -/
def State.clearLink (s : State) : State :=
  { s with upstream := [], echoes := [], segs := mapVector Segment.cleared s.segs, trunkCrc := 0, overrun := 0, clamps := 0
           latched := Latched.none, protocolError := false }

/-- The stops of moving covers, R140 step 1. -/
def State.clearMotion (c : Fin 6) (s : State) : State :=
  match s.coverRec c with
  | some r =>
    if (s.cover c).moving then
      (s.modCover c fun v => { v with travel := v.travel.stop }).submit .cover r.drive 0 0
    else s
  | none => s

/-- The ends of running purges, R140 step 2. -/
def State.clearPurge (c : Fin 6) (s : State) : State :=
  match s.coverRec c with
  | some r =>
    if (s.cover c).purging then
      (s.modCover c fun v => { v with duration := v.duration.stop }).submit .cover r.fan 0 0
    else s
  | none => s

/-- Stage 1 of CLEAR: overrides off, covers stopped and derived (R68, R140); the covers of each step in ascending number
(log 40). -/
def State.clearCovers (s : State) : State :=
  let t := forEach allCovers State.clearPurge (forEach allCovers State.clearMotion s.overridesOff)
  t.deriveCovers

/-- Stages 2 to 4 of CLEAR: statuses, zones and mode. -/
def State.clearForms (s : State) : State :=
  { s with table := s.table.map fun (r : StatusRow) => { r with st := PointStatus.unknown }
           zones := Vector.replicate 8 Zone.start, outdoor := Outdoor.blank, dormantPending := false
           watch := s.watch.stop }.putMode .staffed 7

/-- CLEAR outside BYPASS, R190, after R189. -/
def State.clearJobs (s : State) : State :=
  let s1 := s.clearCovers.clearForms.clearLighting
  let s2 := s1.dropLatches.reestablishAll (some s)
  let s3 := { s2 with capacity := some s2.plant.capacity }.noRequests.allocate
  s3.startZones

/-- CLEAR, R189 and R190. -/
def State.clearAll (s : State) : State :=
  if s.runState = .bypass then s.clearLink else s.clearLink.clearJobs

/-! ### ACKNOWLEDGE, R37, R177 and R188 -/

/-- ACKNOWLEDGE of kind INPUT, R177; in BYPASS no latch is set. -/
def State.ackInput (index : Byte) (s : State) : State × Answer :=
  if index.toNat < 8 then s.acknowledgeLatch (Fin.ofNat 8 index.toNat) else (s, .no .range)

/-- ACKNOWLEDGE of kind NODE, R37. -/
def State.ackNode (index : Byte) (s : State) : State × Answer :=
  let seg := index.toNat / 32
  let node := index.toNat % 32
  if 3 < seg ∨ 30 < node then (s, .no .range)
  else (s.modNode (Fin.ofNat 4 seg) (Fin.ofNat 31 node) fun p => { p with joined := false }, .ok [])

/-- The condition an ACKNOWLEDGE kind code names, R188 and R191. -/
def conditionOf (kind : Nat) : Option Condition :=
  match kind with
  | 2 => some .queueOverrun
  | 3 => some .condensation
  | 4 => some .plantShort
  | 5 => some .coverFault
  | 6 => some .purgeFailed
  | 7 => some .loadAbandoned
  | _ => none

/-- ACKNOWLEDGE by its kind code, R188. -/
def State.acknowledge (kind index : Byte) (s : State) : State × Answer :=
  if kind.toNat = 0 then s.ackInput index
  else if kind.toNat = 1 then s.ackNode index
  else
    match conditionOf kind.toNat with
    | some c => (s.lower c, .ok [])
    | none => (s, .no .range)

/-! ### The palette and the loops -/

/-- PALETTE_POINTER, R142. -/
def State.pointPalette (e : Byte) (s : State) : State × Answer :=
  if e.toNat < 64 then ({ s with palette := s.palette.point (Fin.ofNat 64 e.toNat) }, .ok []) else (s, .no .range)

/-- PALETTE_WRITE, R143. -/
def State.writePalette (values : List Int) (s : State) : State × Answer :=
  if values.length < 1 ∨ 19 < values.length then (s, .no .range)
  else
    let p := s.palette.write values
    ({ s with palette := p }, .ok [byteOf p.entry.val, byteOf p.lampClass.code])

/-- LOOP_WRITE, R150. -/
def State.writeLoop (l first : Byte) (steps : List StepRecord) (s : State) : State × Answer :=
  if 3 < l.toNat ∨ 63 < first.toNat ∨ steps.length < 1 ∨ 6 < steps.length ∨ 64 < first.toNat + steps.length ∨
      !(steps.all stepInRange) then (s, .no .range)
  else
    let k := Fin.ofNat 4 l.toNat
    if s.loopInUse k then (s, .no .loopInUse)
    else (s.setLoop k ((s.loop k).store first.toNat steps), .ok [])

/-- LOOP_LENGTH, R151. -/
def State.lengthLoop (l length : Byte) (s : State) : State × Answer :=
  if 3 < l.toNat ∨ 64 < length.toNat then (s, .no .range)
  else
    let k := Fin.ofNat 4 l.toNat
    if s.loopInUse k then (s, .no .loopInUse)
    else (s.setLoop k { s.loop k with length := length.toNat }, .ok [])

/-! ### Entry to AUTONOMOUS, R182 -/

/-- The trunk-silence timer has expired, R182. -/
def State.silenceExpired (s : State) : State :=
  if s.runState = .running then
    let t := { s with runState := .autonomous }.abandonLoad .autonomous (-1)
    forEach allZones (fun z u => if (u.zone z).override then u.overrideOff z else u) t
  else s

end Sys2Proof.Machine
end

