-- ==== Sys2Proof/Machine/Reads.lean ====
section
/-! DEFINITION. Identification and the reads (R185 to R187, R192): the fields of each read in the spec's order, and the
pages they are cut into. -/

namespace Sys2Proof.Machine

/-! ### Field encodings, R192 (log 21, 22) -/

/-- "None" in a one-byte field, R191. -/
def noneByte : Byte := 0xFF

/-- An enumeration that may be none. -/
def enumByte (c : Option Nat) : Byte :=
  match c with
  | some n => byteOf n
  | none => noneByte

/-- A two-byte number that may be none; none is the code 0xFF of R191 (log 21). -/
def num16 (v : Option Int) : List Byte :=
  match v with
  | some x => s16 x
  | none => s16 255

def flag (b : Bool) : List Byte := [flagByte b]

/-- A timer remainder in base ticks, R81. -/
def remainder (t : Timer) : List Byte := u16 t.remaining

def pointBytes (id : PointId) : List Byte := [byteOf id.seg, byteOf id.node, byteOf id.chan]

/-! ### Pages -/

/-- The bytes of one page. -/
def pageSize : Nat := 32

/-- The number of the last page of a byte string. -/
def lastPage (bs : List Byte) : Nat := (bs.length - 1) / pageSize

/-- One page of a read: the page, the last page and the page's bytes, or RANGE above the last (R192). -/
def pageAnswer (page : Byte) (bs : List Byte) : Answer :=
  if lastPage bs < page.toNat then .no .range
  else .ok ([page, byteOf (lastPage bs)] ++ (bs.drop (page.toNat * pageSize)).take pageSize)

/-! ### IDENTIFY and LOOPBACK, R185 -/

def State.identity (s : State) : List Byte :=
  [byteOf Config.familyCode] ++ u16 Config.partNumber ++ [byteOf Config.revision, s.trunkAddr]

def loopbackAnswer (data : List Byte) : Answer := if 37 ≤ data.length then .no .range else .ok data

/-! ### READ_STATUS, R186 -/

def presentCount (g : Segment) : Nat := (g.nodes.toList.filter fun p => p.state = .present).length

def joinedCount (g : Segment) : Nat := (g.nodes.toList.filter fun p => p.joined).length

def segmentBytes (g : Segment) : List Byte :=
  u16 g.crcCount ++ u16 g.missCount ++ u16 (presentCount g) ++ u16 (joinedCount g)

def inputBytes (l : InputLine) : List Byte := byteOf (levelCode l.debounced) :: flag l.latch.isSome

/-- The body of READ_STATUS, R186. In BYPASS the dormant-pending byte is 0, a choice of the model (log 53). -/
def State.statusBytes (s : State) : List Byte :=
  [byteOf s.runState.code, enumByte (s.mode.map Mode.code)] ++ flag s.dormantPending ++
  [byteOf (s.bank 0).state.code, byteOf (s.bank 1).state.code] ++ num16 (s.active.map fun b => (b.val : Int)) ++
  [s.latched.byte] ++ flag s.protocolError ++ u16 s.overrun ++ u16 s.clamps ++ u16 s.trunkCrc ++
  (allSegs.flatMap fun g => segmentBytes (s.segment g)) ++ (allInputs.flatMap fun i => inputBytes (s.input i))

/-- READ_STATUS: the page, and then the protocol error cleared; a refused page clears nothing (log 27). -/
def State.readStatus (page : Byte) (s : State) : State × Answer :=
  let a := pageAnswer page s.statusBytes
  if a.status = .accepted then ({ s with protocolError := false }, a) else (s, a)

/-! ### READ_POINT, R187 -/

/-- The definition, every field of Table 1-1 in its order; the field of the other class is 0. -/
def definitionBytes (d : PointDef) : List Byte :=
  pointBytes d.id ++
  (match d.role with
    | .sensor q => [0, byteOf q.code, 0]
    | .actuator k => [1, 0, byteOf k.code]) ++
  num16 (d.zone.map fun z => (z.val : Int)) ++ [enumByte (d.owner.map Owner.code)] ++ s32 d.low ++ s32 d.high ++
  [byteOf d.policy.code] ++ u16 d.n ++ u16 d.delta ++ u16 d.stale ++ flag d.override ++ u16 d.strip ++
  [byteOf d.lampClass.code] ++ u16 d.watts ++ u16 d.coverNo

/-- The status record, every field of Table 1-6 in its order (log 23). -/
def recordBytes (st : PointStatus) : List Byte :=
  s32 st.value ++ [byteOf st.quality.code] ++ u16 st.age ++ u16 st.counter ++ s32 st.forwarded ++ u16 st.forwardAge ++
  flag st.missed ++ s32 (st.commanded.getD 0) ++
  [enumByte (st.origin.map Owner.code), enumByte (st.status.map ActStatus.code)] ++ u16 st.misses ++ u16 st.late ++
  flag st.resend

def lampBytes (l : Lamp) : List Byte :=
  s16 l.start ++ s16 l.target ++ u16 l.fade ++ u16 l.elapsed ++ flag l.deferred ++ s16 l.expected

def State.pointBytes (s : State) (d : PointDef) : List Byte :=
  definitionBytes d ++ recordBytes (s.status d.id) ++
  (match s.lamp d.id with
    | some l => lampBytes l
    | none => [])

/-- Refused NOT_RUNNING in BYPASS (R187). -/
def State.jobRead (s : State) (a : Answer) : Answer := if s.runState = .bypass then .no .notRunning else a

def State.readPoint (s : State) (point page : Byte) : Answer :=
  s.jobRead <|
    match s.points[point.toNat]? with
    | some d => pageAnswer page (s.pointBytes d)
    | none => .no .range

/-! ### READ_ZONE, R187 -/

/-- Table 7-2 in its order. The HP stage and the override are coded as flags, on 1 and off 0 (log 49). -/
def zoneBytes (v : Zone) : List Byte :=
  s16 v.air ++ s16 v.rh ++ s16 v.dew ++ s16 v.margin ++ flag v.marginValid ++ flag v.degraded ++ flag v.rangeT ++
  flag v.dewLow ++ s32 v.water ++ flag v.waterUsable ++ s16 v.setpoint ++ flag v.setpointValid ++ s16 v.dehum ++
  s16 v.heat ++ flag v.risk ++ [byteOf v.strategy.code] ++ flag v.hp ++ u16 v.starved ++ u16 v.unstarved ++
  flag v.plantShort ++ u16 v.request ++ u16 v.grant ++ s32 v.lampLoad ++ num16 v.lastValve ++ num16 v.lastOa ++
  num16 v.lastFan ++ num16 v.lastStage ++ u16 v.refresh ++ flag v.occupied ++ u16 v.oaFloor ++ u16 v.fanFloor ++
  s16 v.trim ++ flag v.override

def outdoorBytes (o : Outdoor) : List Byte :=
  flag o.usable ++ s16 o.temp ++ s16 o.rh ++ s16 o.dew ++ flag o.rangeT ++ flag o.dewLow

def State.zoneRead (s : State) (z : Fin 8) : List Byte :=
  zoneBytes (s.zone z) ++ outdoorBytes s.outdoor ++ u16 (s.capacity.getD 0) ++ u16 s.effectiveCapacity ++
  remainder (s.zone z).evalTimer ++ remainder (s.zone z).holdTimer ++
  remainder (((s.supply z).map (·.offDelay)).getD Timer.idle) ++ [enumByte ((s.supplyState z).map SupplyState.code)]

def State.readZone (s : State) (zone page : Byte) : Answer :=
  s.jobRead (if zone.toNat < 8 then pageAnswer page (s.zoneRead (Fin.ofNat 8 zone.toNat)) else .no .range)

/-! ### READ_COVER, READ_SOURCE and READ_PALETTE, R187 and R141 -/

def coverBytes (v : Cover) : List Byte :=
  [byteOf v.state.code, enumByte (v.haltReason.map HaltReason.code)] ++ flag v.derivePending ++ flag v.openPending ++
  [byteOf v.purge.code] ++ flag v.valid ++ flag v.runFailed ++ flag v.confirmed ++ remainder v.travel ++
  remainder v.interval ++ remainder v.duration ++ remainder v.validity

/-- An in-use cover's fields after the indication; every other field 0 for a cover not in use. -/
def State.coverRead (s : State) (c : Fin 6) : List Byte :=
  match s.coverRec c with
  | some _ => flag true ++ coverBytes (s.cover c)
  | none => flag false ++ List.replicate 16 0

def State.readCover (s : State) (cover page : Byte) : Answer :=
  s.jobRead (if cover.toNat < 6 then pageAnswer page (s.coverRead (Fin.ofNat 6 cover.toNat)) else .no .range)

def sourceBytes (v : Source) : List Byte :=
  flag v.playing.isSome ++
  [enumByte (v.playing.map fun p => p.1.val), enumByte (v.playing.map fun p => p.2.val)] ++ remainder v.hold

def State.readSource (s : State) (source : Byte) : Answer :=
  s.jobRead <|
    if source.toNat = 0 then .ok (sourceBytes s.sourceA)
    else if source.toNat = 1 then .ok (sourceBytes s.sourceB)
    else .no .range

def State.readPalette (s : State) (entry : Byte) : Answer :=
  if entry.toNat < 64 then
    let v := s.palette.entries[Fin.ofNat 64 entry.toNat]
    .ok (s16 v.ambient ++ s16 v.underwater ++ s16 v.accent)
  else .no .range

end Sys2Proof.Machine
end

