-- ==== Sys2Proof/Machine/Trunk.lean ====
section
/-! DEFINITION. The Trunk Responder: taking a frame, answering it and draining the Upstream Queue (Section 2.2, R182,
R183), and the meanings of the trunk commands and of power-on. -/

namespace Sys2Proof.Machine

/-- A step's next state. -/
abbrev Result := Host.Outcome State Fault Refusal

/-- A valid frame addressed to the part is taken: the trunk-silence timer is retriggered in RUNNING, and AUTONOMOUS
returns to RUNNING (R23, R182). -/
def State.taken (s : State) : State :=
  match s.runState with
  | .bypass => s
  | _ => { s with runState := .running, silence := s.silence.start silencePair }

/-- Form the REPLY and begin to send it. -/
def State.reply (h : TrunkHdr) (more : Bool) (a : Answer) (s : State) : State :=
  { s with tx := .reply (s.replyFrame h more a) }

/-- Do `f` for a frame that arrives while the receiver hunts; while the part transmits, the frame is lost (R23, R183;
log 9). -/
def whileHunting (f : State → State) (s : State) : State :=
  match s.tx with
  | .hunting => f s
  | _ => s

/-- A station frame taken whole: handled by `f`, the deliveries made, and the REPLY formed (R24, R25, R183). -/
def onTrunk (h : TrunkHdr) (f : State → State × Answer) (s : State) : State :=
  whileHunting (fun s =>
    let t := s.taken
    let r := f t
    (settle t r.1).reply h false r.2) s

/-- A read or a check that changes nothing but through the frame itself. -/
def answerOnly (f : State → Answer) (s : State) : State × Answer := (s, f s)

/-- Take the next entry of a POLL's answer, or form its REPLY (R26). -/
def State.nextEntry (sent : Nat) (h : TrunkHdr) (s : State) : State :=
  match s.upstream with
  | [] => s.reply h false (.ok [])
  | e :: rest =>
    if sent < 8 then { s with upstream := rest, tx := .entry (sent + 1) h (s.entryFrame e) } else s.reply h true (.ok [])

/-- A bad frame on the trunk is counted (R21). -/
def State.countTrunkBad (s : State) : State := { s with trunkCrc := satSucc countLimit s.trunkCrc }

/-! ### Power-on and reception -/

/-- POWER_ON, R179. The queue of commands and the free-value counter are the model's own and run on (log 36). -/
def execPowerOn (straps : BitVec 4) (lines : BitVec 8) (s : State) : Result :=
  .next (State.atPowerOn straps lines s.pending s.freeCount)

/-- BAD_TRUNK_FRAME, R21. -/
def execBadTrunkFrame (s : State) : Result := .next (whileHunting State.countTrunkBad s)

/-- FOREIGN_TRUNK_FRAME, R23. -/
def execForeignTrunkFrame (s : State) : Result := .next s

/-- POLL, R26. -/
def execPoll (h : TrunkHdr) (s : State) : Result := .next (whileHunting (fun s => s.taken.nextEntry 0 h) s)

/-- A taken frame of another kind, R25 and R184. -/
def execTrunkFrameOtherKind (h : TrunkHdr) (_kind : Byte) (s : State) : Result :=
  .next (onTrunk h (fun s => (s.protocolFault, .no .kind)) s)

/-- TRUNK_FRAME_SENT, R26 and R183. -/
def execTrunkFrameSent (s : State) : Result :=
  .next (match s.tx with
    | .hunting => s
    | .entry n h _ => s.nextEntry n h
    | .reply _ => { s with tx := .hunting })

/-! ### SETs -/

/-- STATION_SET, R56. -/
def execStationSet (h : TrunkHdr) (value : Int) (fade : Nat) (s : State) : Result :=
  .next (onTrunk h (State.takeSet h value fade) s)

/-- MODE_REQUEST, R167. -/
def execModeRequest (seq : Byte) (value : Int) (s : State) : Result :=
  .next (onTrunk (virtualHdr 0 0 seq) (State.virtualSet .mode value) s)

/-- PLANT_CAPACITY, R116. -/
def execPlantCapacity (seq : Byte) (value : Int) (s : State) : Result :=
  .next (onTrunk (virtualHdr 0 1 seq) (State.virtualSet .capacity value) s)

/-- SPLIT_POSITION, R155. -/
def execSplitPosition (seq : Byte) (value : Int) (s : State) : Result :=
  .next (onTrunk (virtualHdr 0 2 seq) (State.virtualSet .split value) s)

/-- CUE_SELECT, R152. -/
def execCueSelect (src : SourceId) (seq : Byte) (value : Int) (s : State) : Result :=
  .next (onTrunk (virtualHdr 0 (cueChannel 3 src) seq) (State.virtualSet (.cueSelect src) value) s)

/-- CUE_ADVANCE, R153. -/
def execCueAdvance (src : SourceId) (seq : Byte) (value : Int) (s : State) : Result :=
  .next (onTrunk (virtualHdr 0 (cueChannel 5 src) seq) (State.virtualSet (.cueAdvance src) value) s)

/-- COVER_COMMAND CLOSE, R122. -/
def execCoverClose (c : Fin 6) (seq : Byte) (s : State) : Result :=
  .next (onTrunk (virtualHdr 1 c.val seq) (State.virtualSet (.cover c) 1) s)

/-- COVER_COMMAND OPEN, R123. -/
def execCoverOpen (c : Fin 6) (seq : Byte) (s : State) : Result :=
  .next (onTrunk (virtualHdr 1 c.val seq) (State.virtualSet (.cover c) 2) s)

/-- COVER_COMMAND STOP, R124. -/
def execCoverStop (c : Fin 6) (seq : Byte) (s : State) : Result :=
  .next (onTrunk (virtualHdr 1 c.val seq) (State.virtualSet (.cover c) 0) s)

/-- COVER_COMMAND RESET_FAULT, R125. -/
def execResetFault (c : Fin 6) (seq : Byte) (s : State) : Result :=
  .next (onTrunk (virtualHdr 1 c.val seq) (State.virtualSet (.cover c) 3) s)

/-- ZONE_OVERRIDE, R68. -/
def execZoneOverride (z : Fin 8) (seq : Byte) (value : Int) (s : State) : Result :=
  .next (onTrunk (virtualHdr 2 z.val seq) (State.virtualSet (.override z) value) s)

/-- ZONE_TRIM, R72. -/
def execZoneTrim (z : Fin 8) (seq : Byte) (value : Int) (s : State) : Result :=
  .next (onTrunk (virtualHdr 3 z.val seq) (State.virtualSet (.trim z) value) s)

/-! ### Management requests -/

/-- IDENTIFY, R185. -/
def execIdentify (h : TrunkHdr) (s : State) : Result := .next (onTrunk h (answerOnly fun s => .ok s.identity) s)

/-- LOOPBACK, R185. Without data it is a bad frame: its length is not the 1 to 36 bytes of Table 12-3 (log 28). -/
def execLoopback (h : TrunkHdr) (data : List Byte) (s : State) : Result :=
  if data = [] then .next (whileHunting State.countTrunkBad s)
  else .next (onTrunk h (answerOnly fun _ => loopbackAnswer data) s)

/-- READ_STATUS, R186. -/
def execReadStatus (h : TrunkHdr) (page : Byte) (s : State) : Result := .next (onTrunk h (State.readStatus page) s)

/-- READ_POINT, R187. -/
def execReadPoint (h : TrunkHdr) (point page : Byte) (s : State) : Result :=
  .next (onTrunk h (answerOnly fun s => s.readPoint point page) s)

/-- READ_ZONE, R187. -/
def execReadZone (h : TrunkHdr) (zone page : Byte) (s : State) : Result :=
  .next (onTrunk h (answerOnly fun s => s.readZone zone page) s)

/-- READ_COVER, R187. -/
def execReadCover (h : TrunkHdr) (cover page : Byte) (s : State) : Result :=
  .next (onTrunk h (answerOnly fun s => s.readCover cover page) s)

/-- READ_SOURCE, R187. -/
def execReadSource (h : TrunkHdr) (source : Byte) (s : State) : Result :=
  .next (onTrunk h (answerOnly fun s => s.readSource source) s)

/-- READ_PALETTE, R141. -/
def execReadPalette (h : TrunkHdr) (entry : Byte) (s : State) : Result :=
  .next (onTrunk h (answerOnly fun s => s.readPalette entry) s)

/-- ACKNOWLEDGE of kind INPUT, R177. -/
def execAcknowledgeInput (h : TrunkHdr) (index : Byte) (s : State) : Result := .next (onTrunk h (State.ackInput index) s)

/-- ACKNOWLEDGE of kind NODE, R37. -/
def execAcknowledgeNode (h : TrunkHdr) (index : Byte) (s : State) : Result := .next (onTrunk h (State.ackNode index) s)

/-- ACKNOWLEDGE by another kind code, R188. -/
def execAcknowledgeCondition (h : TrunkHdr) (kind index : Byte) (s : State) : Result :=
  .next (onTrunk h (State.acknowledge kind index) s)

/-- CLEAR, R189 and R190. -/
def execClear (h : TrunkHdr) (s : State) : Result := .next (onTrunk h (fun s => (s.clearAll, .ok [])) s)

/-- GO, R180. -/
def execGo (h : TrunkHdr) (bank : Byte) (s : State) : Result := .next (onTrunk h (State.go bank) s)

/-- HALT, R181. -/
def execHalt (h : TrunkHdr) (s : State) : Result := .next (onTrunk h State.halt s)

/-- BANK_SWITCH, R11. -/
def execBankSwitch (h : TrunkHdr) (bank : Byte) (s : State) : Result := .next (onTrunk h (State.bankSwitch bank) s)

/-- LOAD_BEGIN, R7. -/
def execLoadBegin (h : TrunkHdr) (bank : Byte) (count : BitVec 16) (s : State) : Result :=
  .next (onTrunk h (State.loadBegin bank count.toNat) s)

/-- LOAD_RECORD, R8. A body whose length is not its kind's is a bad frame (R21, Section 12.2). -/
def execLoadRecord (h : TrunkHdr) (number : BitVec 16) (kind : Byte) (body : List Byte) (s : State) : Result :=
  match recordSize kind.toNat with
  | some n =>
    if body.length = n then .next (onTrunk h (State.loadRecord number.toNat kind body) s)
    else .next (whileHunting State.countTrunkBad s)
  | none => .next (onTrunk h (State.loadRecord number.toNat kind body) s)

/-- LOAD_END, R9. -/
def execLoadEnd (h : TrunkHdr) (s : State) : Result := .next (onTrunk h State.loadEnd s)

/-- PALETTE_POINTER, R142. -/
def execPalettePointer (h : TrunkHdr) (entry : Byte) (s : State) : Result := .next (onTrunk h (State.pointPalette entry) s)

/-- PALETTE_WRITE, R143. -/
def execPaletteWrite (h : TrunkHdr) (values : List Int) (s : State) : Result :=
  .next (onTrunk h (State.writePalette values) s)

/-- LOOP_WRITE, R150. -/
def execLoopWrite (h : TrunkHdr) (loop first : Byte) (steps : List StepRecord) (s : State) : Result :=
  .next (onTrunk h (State.writeLoop loop first steps) s)

/-- LOOP_LENGTH, R151. -/
def execLoopLength (h : TrunkHdr) (loop length : Byte) (s : State) : Result :=
  .next (onTrunk h (State.lengthLoop loop length) s)

/-- A request code that names no request, R183. -/
def execUnknownRequest (h : TrunkHdr) (_code : Byte) (s : State) : Result :=
  .next (onTrunk h (fun s => (s.protocolFault, .no .unknownRequest)) s)

end Sys2Proof.Machine
end

