-- ==== Sys2Proof/Machine/Field.lean ====
section
/-! DEFINITION. The meanings of the field-link commands, Sections 2.3 to 2.5. -/

namespace Sys2Proof.Machine

/-- SEGMENT_POLL, R28. -/
def execSegmentPoll (seg : Fin 4) (s : State) : Result := .next (s.pollSegment seg false)

/-- ROLL_CALL_POLL, R28 and R36. -/
def execRollCallPoll (seg : Fin 4) (s : State) : Result := .next (s.pollSegment seg true)

/-- SAMPLE, R44. -/
def execSample (seg : Fin 4) (node chan seq : Byte) (value : Int) (status : Byte) (s : State) : Result :=
  .next (s.takeFrame seg node fun x => handOn x (State.takeSample (segmentPoint seg node chan) seq value status))

/-- ECHO, R64. -/
def execEcho (seg : Fin 4) (node chan seq : Byte) (value : Int) (status : Byte) (s : State) : Result :=
  .next (s.takeFrame seg node fun x => handOn x (State.takeEcho (segmentPoint seg node chan) seq value status))

/-- HELLO, R34 and R35. The channel count is not kept. -/
def execHello (seg : Fin 4) (node classCode _channels : Byte) (s : State) : Result :=
  .next (s.takeFrame seg node fun x => State.takeHello seg x.node classCode)

/-- END_FRAME, R29. -/
def execEndFrame (seg : Fin 4) (node : Byte) (s : State) : Result :=
  .next (match (s.segment seg).exchange with
    | some x => if node.toNat = x.node.val then s.endAnswer seg else s.badFrame seg
    | none => s.badFrame seg)

/-- BAD_SEGMENT_FRAME, R21 and R31. -/
def execBadSegmentFrame (seg : Fin 4) (s : State) : Result := .next (s.badFrame seg)

/-- ANSWER_SILENCE, R29: 20 ms of silence after a frame of an answer. -/
def execAnswerSilence (seg : Fin 4) (s : State) : Result :=
  .next (match (s.segment seg).exchange with
    | some x => if x.answered then s.completeExchange seg x else s
    | none => s)

/-- MISSED_ANSWER, R32: 20 ms without a valid first frame. -/
def execMissedAnswer (seg : Fin 4) (s : State) : Result :=
  .next (match (s.segment seg).exchange with
    | some x => if x.answered then s else s.completeExchange seg x
    | none => s)

end Sys2Proof.Machine
end

