-- ==== Sys2Proof/Machine/Pins.lean ====
section
/-! DEFINITION. The meanings of the input-line commands, R174 and R175. -/

namespace Sys2Proof.Machine

/-- A line takes a level: a change starts the stability interval, and a return to the debounced level abandons it
(R174). -/
def InputLine.take (l : InputLine) (v : Level) : InputLine :=
  if l.level = v then l else { l with level := v, settling := decide (v ≠ l.debounced) }

/-- INPUT_LINE_CHANGE, R174. -/
def execInputLineChange (i : Fin 8) (level : Level) (s : State) : Result := .next (s.setInput i ((s.input i).take level))

/-- DEBOUNCED_TRANSITION, R174 and R175: the end of a stability interval that runs. -/
def execDebouncedTransition (i : Fin 8) (s : State) : Result :=
  .next (if (s.input i).settling then settle s (s.transition i) else s)

end Sys2Proof.Machine
end

