-- ==== Sys2Proof/Machine/Time.lean ====
section
/-! DEFINITION. The base ticks and the expiries they bring (Chapter 5, R19, R149), and the meanings of the time commands.
An expiry command is a tick that finds its timer due: it acts then and only then (log 3). -/

namespace Sys2Proof.Machine

/-- The timer of a name; none where its record does not exist. -/
def State.timer (s : State) : TimerId → Option Timer
  | .evaluation z => some (s.zone z).evalTimer
  | .occupancyHold z => some (s.zone z).holdTimer
  | .supplyOffDelay z => (s.supply z).map (·.offDelay)
  | .travel c => some (s.cover c).travel
  | .purgeInterval c => some (s.cover c).interval
  | .purgeDuration c => some (s.cover c).duration
  | .validity c => some (s.cover c).validity
  | .cueHold src => some (s.source src).hold
  | .dormantWatch => some s.watch
  | .trunkSilence => some s.silence
  | .echo p => (s.echoes.find? fun e => e.point = p).map (·.timer)

/-- Replace the timer of a name. -/
def State.modTimer (t : TimerId) (f : Timer → Timer) (s : State) : State :=
  match t with
  | .evaluation z => s.modZone z fun v => { v with evalTimer := f v.evalTimer }
  | .occupancyHold z => s.modZone z fun v => { v with holdTimer := f v.holdTimer }
  | .supplyOffDelay z => s.modSupply z fun v => { v with offDelay := f v.offDelay }
  | .travel c => s.modCover c fun v => { v with travel := f v.travel }
  | .purgeInterval c => s.modCover c fun v => { v with interval := f v.interval }
  | .purgeDuration c => s.modCover c fun v => { v with duration := f v.duration }
  | .validity c => s.modCover c fun v => { v with validity := f v.validity }
  | .cueHold src => s.setSource src { s.source src with hold := f (s.source src).hold }
  | .dormantWatch => { s with watch := f s.watch }
  | .trunkSilence => { s with silence := f s.silence }
  | .echo p => { s with echoes := s.echoes.map fun e => if e.point = p then { e with timer := f e.timer } else e }

/-- The mode of a timer, Table 5-3. -/
def timerContinuous : TimerId → Bool
  | .evaluation _ => true
  | .dormantWatch => true
  | _ => false

/-- What an expiry means to its owner, Table 5-3; the timer has its post-expiry state already (R77). -/
def State.expired (t : TimerId) (s : State) : State :=
  match t with
  | .evaluation z => s.evaluationExpired z
  | .occupancyHold z => s.holdExpired z
  | .supplyOffDelay z => s.offDelayExpired z
  | .travel c => s.travelExpired c
  | .purgeInterval c => s.intervalExpired c
  | .purgeDuration c => s.durationExpired c
  | .validity c => s.validityExpired c
  | .cueHold src => s.cueExpired src
  | .dormantWatch => s.watchEvaluations
  | .trunkSilence => s.silenceExpired
  | .echo p => s.echoExpired p

/-- The timer's post-expiry state, R76. -/
def postExpiry (t : TimerId) (v : Timer) : Timer := if timerContinuous t then v.expireContinuous else v.expireSingle

/-- The timer is due: the next base tick expires it. -/
def State.timerDue (s : State) (t : TimerId) : Bool := ((s.timer t).map Timer.due).getD false

/-- The tick that expires a timer, with the owner's handling and the deliveries (R76, R77). -/
def State.expire (t : TimerId) (s : State) : State := settle s ((s.modTimer t (postExpiry t)).expired t)

/-- An expiry taken when the timer is due, and only then. -/
def State.expireIfDue (t : TimerId) (s : State) : State := if s.timerDue t then s.expire t else s

/-- A base tick reaches a timer, R76. -/
def State.tickTimer (t : TimerId) (s : State) : State := if s.timerDue t then s.expire t else s.modTimer t Timer.tick

/-- ECHO_MISS, R66. -/
def execEchoMiss (p : PointId) (s : State) : Result := .next (s.expireIfDue (.echo p))

/-- AGING_SWEEP, R19: while a bank is ACTIVE. -/
def execAgingSweep (s : State) : Result := .next (if s.active.isSome then settle s s.agingSweep else s)

/-- FADE_TICK, R149. -/
def execFadeTick (s : State) : Result :=
  .next { s with lamps := s.lamps.map fun (r : LampRow) => { r with lamp := r.lamp.tick } }

/-- EVALUATION_TIMER_EXPIRY, R98. -/
def execEvaluationTimerExpiry (z : Fin 8) (s : State) : Result := .next (s.expireIfDue (.evaluation z))

/-- OCCUPANCY_HOLD_EXPIRY, R112. -/
def execOccupancyHoldExpiry (z : Fin 8) (s : State) : Result := .next (s.expireIfDue (.occupancyHold z))

/-- DORMANT_WATCH_EXPIRY, R172. The expiry of a due watch makes the watch evaluations whatever the mode (R114); a watch
that was stopped first has none (R78; log 4). -/
def execDormantWatchExpiry (s : State) : Result := .next (s.expireIfDue .dormantWatch)

/-- TRAVEL_TIMER_EXPIRY, R129. -/
def execTravelTimerExpiry (c : Fin 6) (s : State) : Result := .next (s.expireIfDue (.travel c))

/-- PURGE_INTERVAL_EXPIRY, R131. -/
def execPurgeIntervalExpiry (c : Fin 6) (s : State) : Result := .next (s.expireIfDue (.purgeInterval c))

/-- PURGE_DURATION_EXPIRY, R133. -/
def execPurgeDurationExpiry (c : Fin 6) (s : State) : Result := .next (s.expireIfDue (.purgeDuration c))

/-- VALIDITY_EXPIRY, R134. -/
def execValidityExpiry (c : Fin 6) (s : State) : Result := .next (s.expireIfDue (.validity c))

/-- CUE_HOLD_EXPIRY, R154. -/
def execCueHoldExpiry (src : SourceId) (s : State) : Result := .next (s.expireIfDue (.cueHold src))

/-- SUPPLY_OFF_DELAY_EXPIRY, R159. -/
def execSupplyOffDelayExpiry (z : Fin 8) (s : State) : Result := .next (s.expireIfDue (.supplyOffDelay z))

/-- TRUNK_SILENCE_EXPIRY, R182. -/
def execTrunkSilenceExpiry (s : State) : Result := .next (s.expireIfDue .trunkSilence)

/-- TIMER_COUNT_TICK, R76; a tick that finds the timer due expires it (log 3). -/
def execTimerCountTick (t : TimerId) (s : State) : Result := .next (s.tickTimer t)

end Sys2Proof.Machine
end

