-- ==== Sys2Proof/Machine/Dispatch.lean ====
section
/-! DEFINITION. The command dispatch: one arm for each constructor of Instr. -/

namespace Sys2Proof.Machine

def exec (i : Instr) (s : State) : Host.Outcome State Fault Refusal :=
  match i with
  | .powerOn straps lines => Sys2Proof.Machine.execPowerOn straps lines s
  | .badTrunkFrame => Sys2Proof.Machine.execBadTrunkFrame s
  | .foreignTrunkFrame => Sys2Proof.Machine.execForeignTrunkFrame s
  | .poll h => Sys2Proof.Machine.execPoll h s
  | .trunkFrameOtherKind h kind => Sys2Proof.Machine.execTrunkFrameOtherKind h kind s
  | .stationSet h value fade => Sys2Proof.Machine.execStationSet h value fade s
  | .modeRequest seq value => Sys2Proof.Machine.execModeRequest seq value s
  | .plantCapacity seq value => Sys2Proof.Machine.execPlantCapacity seq value s
  | .splitPosition seq value => Sys2Proof.Machine.execSplitPosition seq value s
  | .cueSelect src seq value => Sys2Proof.Machine.execCueSelect src seq value s
  | .cueAdvance src seq value => Sys2Proof.Machine.execCueAdvance src seq value s
  | .coverClose c seq => Sys2Proof.Machine.execCoverClose c seq s
  | .coverOpen c seq => Sys2Proof.Machine.execCoverOpen c seq s
  | .coverStop c seq => Sys2Proof.Machine.execCoverStop c seq s
  | .resetFault c seq => Sys2Proof.Machine.execResetFault c seq s
  | .zoneOverride z seq value => Sys2Proof.Machine.execZoneOverride z seq value s
  | .zoneTrim z seq value => Sys2Proof.Machine.execZoneTrim z seq value s
  | .identify h => Sys2Proof.Machine.execIdentify h s
  | .loopback h data => Sys2Proof.Machine.execLoopback h data s
  | .readStatus h page => Sys2Proof.Machine.execReadStatus h page s
  | .readPoint h point page => Sys2Proof.Machine.execReadPoint h point page s
  | .readZone h zone page => Sys2Proof.Machine.execReadZone h zone page s
  | .readCover h cover page => Sys2Proof.Machine.execReadCover h cover page s
  | .readSource h source => Sys2Proof.Machine.execReadSource h source s
  | .readPalette h entry => Sys2Proof.Machine.execReadPalette h entry s
  | .acknowledgeInput h index => Sys2Proof.Machine.execAcknowledgeInput h index s
  | .acknowledgeNode h index => Sys2Proof.Machine.execAcknowledgeNode h index s
  | .acknowledgeCondition h kind index => Sys2Proof.Machine.execAcknowledgeCondition h kind index s
  | .clear h => Sys2Proof.Machine.execClear h s
  | .go h bank => Sys2Proof.Machine.execGo h bank s
  | .halt h => Sys2Proof.Machine.execHalt h s
  | .bankSwitch h bank => Sys2Proof.Machine.execBankSwitch h bank s
  | .loadBegin h bank count => Sys2Proof.Machine.execLoadBegin h bank count s
  | .loadRecord h number kind body => Sys2Proof.Machine.execLoadRecord h number kind body s
  | .loadEnd h => Sys2Proof.Machine.execLoadEnd h s
  | .palettePointer h entry => Sys2Proof.Machine.execPalettePointer h entry s
  | .paletteWrite h values => Sys2Proof.Machine.execPaletteWrite h values s
  | .loopWrite h loop first steps => Sys2Proof.Machine.execLoopWrite h loop first steps s
  | .loopLength h loop length => Sys2Proof.Machine.execLoopLength h loop length s
  | .unknownRequest h code => Sys2Proof.Machine.execUnknownRequest h code s
  | .segmentPoll seg => Sys2Proof.Machine.execSegmentPoll seg s
  | .rollCallPoll seg => Sys2Proof.Machine.execRollCallPoll seg s
  | .sample seg node chan seq value status => Sys2Proof.Machine.execSample seg node chan seq value status s
  | .echo seg node chan seq value status => Sys2Proof.Machine.execEcho seg node chan seq value status s
  | .hello seg node classCode channels => Sys2Proof.Machine.execHello seg node classCode channels s
  | .endFrame seg node => Sys2Proof.Machine.execEndFrame seg node s
  | .badSegmentFrame seg => Sys2Proof.Machine.execBadSegmentFrame seg s
  | .answerSilence seg => Sys2Proof.Machine.execAnswerSilence seg s
  | .missedAnswer seg => Sys2Proof.Machine.execMissedAnswer seg s
  | .echoMiss p => Sys2Proof.Machine.execEchoMiss p s
  | .agingSweep => Sys2Proof.Machine.execAgingSweep s
  | .fadeTick => Sys2Proof.Machine.execFadeTick s
  | .evaluationTimerExpiry z => Sys2Proof.Machine.execEvaluationTimerExpiry z s
  | .occupancyHoldExpiry z => Sys2Proof.Machine.execOccupancyHoldExpiry z s
  | .dormantWatchExpiry => Sys2Proof.Machine.execDormantWatchExpiry s
  | .travelTimerExpiry c => Sys2Proof.Machine.execTravelTimerExpiry c s
  | .purgeIntervalExpiry c => Sys2Proof.Machine.execPurgeIntervalExpiry c s
  | .purgeDurationExpiry c => Sys2Proof.Machine.execPurgeDurationExpiry c s
  | .validityExpiry c => Sys2Proof.Machine.execValidityExpiry c s
  | .cueHoldExpiry src => Sys2Proof.Machine.execCueHoldExpiry src s
  | .supplyOffDelayExpiry z => Sys2Proof.Machine.execSupplyOffDelayExpiry z s
  | .inputLineChange line level => Sys2Proof.Machine.execInputLineChange line level s
  | .debouncedTransition line => Sys2Proof.Machine.execDebouncedTransition line s
  | .trunkSilenceExpiry => Sys2Proof.Machine.execTrunkSilenceExpiry s
  | .timerCountTick t => Sys2Proof.Machine.execTimerCountTick t s
  | .trunkFrameSent => Sys2Proof.Machine.execTrunkFrameSent s

end Sys2Proof.Machine
end

