-- ==== Sys2Proof/Safety.lean ====
section
/-! DEFINITION. The words the statements are made of: runs of commands, the frames the part answers, the state after
power-on, what a command may leave alone, and the laws the spec says hold at every moment. -/

namespace Sys2Proof.Machine

/-! ### Commands -/

/-- Commands one after another, up to the first that answers no next state. -/
def execAll : List Instr → State → Result
  | [], s => .next s
  | c :: rest, s =>
    match exec c s with
    | .next t => execAll rest t
    | stop => stop

/-- The header a REPLY copies from the frame it answers (R22, R25). None for a POLL, which the queue's entries answer
first, for a frame whose length is not its request's, and for every command that is no frame to the part. -/
def replyHdr : Instr → Option TrunkHdr
  | .trunkFrameOtherKind h _ | .stationSet h _ _ | .identify h | .readStatus h _ | .readPoint h _ _ | .readZone h _ _
  | .readCover h _ _ | .readSource h _ | .readPalette h _ | .acknowledgeInput h _ | .acknowledgeNode h _
  | .acknowledgeCondition h _ _ | .clear h | .go h _ | .halt h | .bankSwitch h _ | .loadBegin h _ _ | .loadEnd h
  | .palettePointer h _ | .paletteWrite h _ | .loopWrite h _ _ _ | .loopLength h _ _ | .unknownRequest h _ => some h
  | .loopback h data => if data = [] then none else some h
  | .loadRecord h _ kind body =>
    if ((recordSize kind.toNat).map fun n => decide (body.length = n)).getD true then some h else none
  | .modeRequest seq _ => some (virtualHdr 0 0 seq)
  | .plantCapacity seq _ => some (virtualHdr 0 1 seq)
  | .splitPosition seq _ => some (virtualHdr 0 2 seq)
  | .cueSelect src seq _ => some (virtualHdr 0 (cueChannel 3 src) seq)
  | .cueAdvance src seq _ => some (virtualHdr 0 (cueChannel 5 src) seq)
  | .coverClose c seq | .coverOpen c seq | .coverStop c seq | .resetFault c seq => some (virtualHdr 1 c.val seq)
  | .zoneOverride z seq _ => some (virtualHdr 2 z.val seq)
  | .zoneTrim z seq _ => some (virtualHdr 3 z.val seq)
  | _ => none

/-- The command is heard by the trunk receiver and concerns the part: a bad frame, or a frame for the part. -/
def fromTrunk : Instr → Bool
  | .badTrunkFrame => true
  | .poll _ => true
  | .loopback _ _ => true
  | .loadRecord _ _ _ _ => true
  | c => (replyHdr c).isSome

/-- A read: it reports and changes nothing but through its own frame. -/
def isRead : Instr → Bool
  | .identify _ | .readPoint _ _ _ | .readZone _ _ _ | .readCover _ _ _ | .readSource _ _ | .readPalette _ _ => true
  | _ => false

/-! ### What a command leaves alone -/

/-- The station's own side: the address, the trunk's count, the banks, the palette and the loops. -/
def sameStation (s t : State) : Prop :=
  t.trunkAddr = s.trunkAddr ∧ t.trunkCrc = s.trunkCrc ∧ t.protocolError = s.protocolError ∧ t.banks = s.banks ∧
    t.load = s.load ∧ t.active = s.active ∧ t.palette = s.palette ∧ t.loops = s.loops ∧ t.freeCount = s.freeCount ∧
    t.pending = s.pending

/-- The run state, the trunk-silence timer and the transmitter. -/
def sameRun (s t : State) : Prop := t.runState = s.runState ∧ t.silence = s.silence ∧ t.tx = s.tx

/-- The two sources and the split position. -/
def sameSources (s t : State) : Prop := t.sourceA = s.sourceA ∧ t.sourceB = s.sourceB ∧ t.split = s.split

/-- The capacity value and the priority order. -/
def samePlant (s t : State) : Prop := t.capacity = s.capacity ∧ t.priority = s.priority

/-- Everything of every segment but the send queue. -/
def sameLink (s t : State) : Prop :=
  ∀ g, { t.segment g with queue := [] } = { s.segment g with queue := [] }

/-- The mode, the dormant-pending flag and the dormant watch. -/
def sameMode (s t : State) : Prop := t.mode = s.mode ∧ t.dormantPending = s.dormantPending ∧ t.watch = s.watch

/-- The trims and the overrides of the zones. -/
def sameTrims (s t : State) : Prop :=
  ∀ z, (t.zone z).trim = (s.zone z).trim ∧ (t.zone z).override = (s.zone z).override

/-- Every status record but for its resend-wanted and forward-missed flags. -/
def sameStatuses (s t : State) : Prop :=
  ∀ id, t.status id = { s.status id with resend := (t.status id).resend, missed := (t.status id).missed }

/-- What no job writes: everything but zones, covers, supplies, lamps, the outdoor record, the mode, the queues, the
flags of statuses and the latched conditions. -/
def jobFrame (s t : State) : Prop :=
  sameStation s t ∧ sameRun s t ∧ sameSources s t ∧ samePlant s t ∧ sameLink s t ∧ sameTrims s t ∧
    t.inputs = s.inputs ∧ t.echoes = s.echoes

/-- Entries that are no SAMPLE stay in the Upstream Queue. -/
def keepsNotices (s t : State) : Prop := ∀ e ∈ s.upstream, e.sampleId = none → e ∈ t.upstream

/-- A notice of the kind, numbered `n` and with the values, is in the queue. -/
def hasNotice (s : State) (k : NoticeKind) (subject : Nat) (first second : Int) (n : Byte) : Prop :=
  UpEntry.notice ⟨k, subject, first, second, n⟩ ∈ s.upstream

/-- A queued SET for a point. -/
def hasSet (s : State) (id : PointId) (value : Int) (o : Owner) : Prop :=
  ∃ e ∈ (s.segment (pointSeg id)).queue, e.point = id ∧ e.value = value ∧ e.origin = o

/-- A job's SET to a point has been submitted (R60): it stands in its segment's queue, clamped and with its fade capped,
or an override in force, an absent node or a full queue has withheld it and the point is marked for resend. -/
def State.submitted (t : State) (o : Owner) (d : PointDef) (value : Int) (fade : Nat) : Prop :=
  (⟨d.id, clampTo d.low d.high value, min fade 600, o, 0⟩ : SendEntry) ∈ (t.segment (pointSeg d.id)).queue ∨
    (t.status d.id).resend = true ∧
      (t.overrideInForce d = true ∨ t.nodePresent d.id = false ∨ t.queueFull d.id = true)

/-! ### After power-on, R179 -/

/-- The part as R179 and the power-on sentences of the chapters describe it. -/
def State.fresh (s : State) : Prop :=
  s.runState = .bypass ∧ s.silence.running = false ∧ s.protocolError = false ∧ s.trunkCrc = 0 ∧ s.tx = .hunting ∧
  s.latched = Latched.none ∧ s.noticeSeq = 0 ∧ s.upstream = [] ∧ s.overrun = 0 ∧ s.clamps = 0 ∧ s.echoes = [] ∧
  (∀ g, (s.segment g).queue = [] ∧ (s.segment g).fieldSeq = 0 ∧ (s.segment g).roundCounter = 0 ∧
    (s.segment g).rollCall = 0 ∧ (s.segment g).crcCount = 0 ∧ (s.segment g).missCount = 0 ∧
    (s.segment g).exchange = none ∧
    ∀ n : Fin 31, (s.segment g).nodes[n] = { state := .absent, misses := 0, joined := false }) ∧
  (∀ b, (s.bank b).state = .empty ∧ (s.bank b).records = []) ∧ s.load = none ∧ s.active = none ∧ s.table = [] ∧
  s.capacity = none ∧ s.lamps = [] ∧ (∀ z, s.supply z = none) ∧ s.mode = none ∧ s.dormantPending = false ∧
  s.watch.running = false ∧ (∀ src, (s.source src).playing = none ∧ (s.source src).hold.running = false) ∧
  (∀ e : Fin 64, s.palette.entries[e] = { ambient := 0, underwater := 0, accent := 0 }) ∧ s.palette.entry = 1 ∧
  s.palette.lampClass = .ambient ∧ s.palette.held = [] ∧
  (∀ l, (s.loop l).length = 0 ∧
    ∀ k : Fin 64, (s.loop l).steps[k] = { scene := 0, fade := 0, prescale := 0, count := 1, marks := 0 }) ∧
  (∀ i, (s.input i).latch = none ∧ (s.input i).settling = false)

/-! ### CLEAR and GO: R189, R190, R180 -/

/-- What R189 empties: the queues and the Pending Echo List, the counts, the latched conditions and the protocol error, with
every PRESENT node newly joined. Everything else is kept. -/
def emptied (s t : State) : Prop :=
  t = { s with
    upstream := [], echoes := [], segs := t.segs, trunkCrc := 0, overrun := 0, clamps := 0, latched := Latched.none
    protocolError := false } ∧
  ∀ g, t.segment g =
      { s.segment g with queue := [], crcCount := 0, missCount := 0, nodes := (t.segment g).nodes } ∧
    ∀ n : Fin 31, (t.segment g).nodes[n] =
      if (s.segment g).nodes[n].state = .present then { (s.segment g).nodes[n] with joined := true }
      else (s.segment g).nodes[n]

/-- The zone has a sensor of the OCCUPANCY quantity. -/
def State.watched (s : State) (z : Fin 8) : Bool :=
  s.points.any fun d => decide (d.role = .sensor .occupancy ∧ d.zone = some z)

/-- The outputs of the first evaluation of a zone after GO or CLEAR: every point is UNKNOWN, so the course is that of an
unusable air temperature, the dehumidification demand is the fallback and nothing is granted (R86, R101 to R108). -/
def State.firstOutput (s : State) (z : Fin 8) (r : ZoneRec) : ActKind → Int
  | .oaDamper => if s.watched z then r.occupiedOa else 0
  | .supplyFan => max (r.dayFan : Int) (if 0 < r.fallback then (r.dehumFan : Int) else 0)
  | .dehumStage => if 0 < r.fallback ∧ r.hpOn ≤ r.fallback then 1 else 0
  | _ => 0

/-- A zone once GO or CLEAR has put it in its starting form, examined its occupied flag and, where it is in use, evaluated it
and started its timer (R97, R98, R111, R180, R190). -/
def State.startedZone (s : State) (z : Fin 8) : Zone :=
  match s.zoneRec z with
  | none => Zone.start
  | some r =>
    let sent (k : ActKind) : Option Int :=
      if s.points.any fun d => decide (d.role = .actuator k ∧ d.owner = some .climate ∧ d.zone = some z) then
        some (s.firstOutput z r k)
      else none
    { Zone.start with
      degraded := true, setpoint := (((r.setMin + r.setMax) / 2 : Nat) : Int), dehum := r.fallback
      strategy := if 0 < r.fallback then .heatPump else .none
      hp := decide (0 < r.fallback ∧ r.hpOn ≤ r.fallback)
      unstarved := 1, occupied := s.watched z, refresh := 1, lastValve := sent .heatValve, lastOa := sent .oaDamper
      lastFan := sent .supplyFan, lastStage := sent .dehumStage, evalTimer := Timer.idle.start ⟨1, r.period⟩ }

/-! ### The laws of the queues: R38, R48, R63 -/

/-- Every queue within its bounds: 64 upstream entries with no two SAMPLEs of one identity, 8 entries of a send queue
and 32 pending echoes with at most one for any point. -/
def State.queuesInBounds (s : State) : Prop :=
  s.upstream.length ≤ 64 ∧ (s.upstream.filterMap UpEntry.sampleId).Nodup ∧
  (∀ g, (s.segment g).queue.length ≤ 8 ∧ ((s.segment g).queue.map (·.point)).Nodup) ∧
  s.echoes.length ≤ 32 ∧ (s.echoes.map (·.point)).Nodup

/-! ### The single-record checks: R1 to R3, R193 -/

/-- The first offset, in layout order, at which a check fails. -/
def firstOffset (fails : Nat → Prop) (o : Nat) : Prop := fails o ∧ ∀ p < o, ¬ fails p

/-- A number lies outside its range. -/
abbrev outside (lo hi n : Nat) : Prop := n < lo ∨ hi < n

/-- The three bytes at an offset are no field identity. -/
def noField (bs : List Byte) (o : Nat) : Prop := 3 < get8 bs o ∨ 30 < get8 bs (o + 1) ∨ 15 < get8 bs (o + 2)

/-- R1: the field of a POINT body at an offset is outside its range (Tables 1-1 and 12-5). -/
def pointFieldFails (bs : List Byte) (o : Nat) : Prop :=
  let actuator := get8 bs 3 = 1
  let lamp := actuator ∧ get8 bs 4 = 6
  match o with
  | 0 => noField bs 0
  | 3 => 1 < get8 bs 3
  | 4 => 8 < get8 bs 4
  | 5 => 7 < get8 bs 5 ∧ get8 bs 5 ≠ 0xFF
  | 6 => 3 < get8 bs 6 ∧ get8 bs 6 ≠ 0xFF
  | 11 => getS32 bs 11 < getS32 bs 7
  | 15 => 3 < get8 bs 15
  | 16 => (get8 bs 15 = 1 ∧ outside 2 64 (get16 bs 16)) ∨ (get8 bs 15 = 2 ∧ get16 bs 16 = 0)
  | 18 => outside 1 3600 (get16 bs 18)
  | 20 => 1 < get8 bs 20
  | 21 => lamp ∧ 95 < get8 bs 21
  | 22 => lamp ∧ 2 < get8 bs 22
  | 23 => lamp ∧ outside 1 2000 (get16 bs 23)
  | 25 => ((actuator ∧ (get8 bs 4 = 4 ∨ get8 bs 4 = 5)) ∨ (¬ actuator ∧ get8 bs 4 = 7)) ∧ 5 < get8 bs 25
  | _ => False

/-- R2: the field of a POINT body at an offset disagrees with an earlier one. -/
def pointFieldDisagrees (bs : List Byte) (o : Nat) : Prop :=
  let actuator := get8 bs 3 = 1
  let kind := get8 bs 4
  let zoned := get8 bs 5 ≠ 0xFF
  match o with
  | 5 =>
    if actuator then kind ≠ 8 ∧ ¬ zoned
    else ((kind = 4 ∨ kind = 5) ∧ zoned) ∨ (kind ≠ 4 ∧ kind ≠ 5 ∧ kind ≠ 8 ∧ ¬ zoned)
  | 6 =>
    if actuator then
      get8 bs 6 ∉ (if kind ≤ 3 then [0, 1] else if kind ≤ 5 then [2] else if kind ≤ 7 then [0, 3] else [0])
    else get8 bs 6 ≠ 0xFF
  | 15 => actuator ∧ get8 bs 15 ≠ 3
  | 20 => get8 bs 20 = 1 ∧ (actuator → kind = 5)
  | _ => False

/-- R3: the field of a job record's body at an offset is outside its range (Tables 1-2, 12-6 and 12-7). -/
def jobFieldFails (kind : Nat) (bs : List Byte) (o : Nat) : Prop :=
  let inUse := 128 ≤ get8 bs 0
  let prescale := outside 1 64 (get8 bs o)
  match kind with
  | 1 => inUse ∧
    match o with
    | 1 => outside 2 60 (get8 bs 1)
    | 2 => 100 < get8 bs 2
    | 3 => 400 < get16 bs 3
    | 5 | 9 => 500 < get16 bs o
    | 7 => getS16 bs 7 < -2000 ∨ 6000 < getS16 bs 7
    | 11 | 13 => 4000 < get16 bs o
    | 15 => 2000 < get16 bs 15
    | 17 | 19 | 21 => 1000 < get16 bs o
    | 23 => outside 1500 4000 (packed1 bs 23)
    | 24 => outside 1500 4000 (packed2 bs 23)
    | 26 => outside 50 2000 (packed1 bs 26)
    | 27 => outside 50 2000 (packed2 bs 26)
    | 29 | 32 => 1000 < packed1 bs o
    | 30 | 33 => 1000 < packed2 bs (o - 1)
    | _ => False
  | 2 =>
    match o with
    | 0 => 5 < get8 bs 0 % 8
    | 1 => inUse ∧ 7 < get8 bs 1
    | 2 | 5 | 8 => inUse ∧ noField bs o
    | 11 => inUse ∧ outside 10 3600 (get16 bs 11)
    | 13 | 15 | 17 => inUse ∧ prescale
    | 19 | 21 | 23 => inUse ∧ 1000 < get16 bs o
    | _ => False
  | 3 =>
    match o with
    | 1 | 2 => 1 < get8 bs o
    | 3 => 5 < get8 bs 3
    | _ => False
  | 4 =>
    match o with
    | 0 | 1 | 2 | 3 => 3 < get8 bs o
    | 5 => 4000 < get16 bs 5
    | _ => False
  | _ =>
    match o with
    | 0 | 2 | 4 => prescale
    | 6 => 600 < get16 bs 6
    | _ => False

/-- What a POINT body is stored as: its fields, those that R2 ignores at 0. -/
def pointStored (bs : List Byte) (d : PointDef) : Prop :=
  let lamp := d.role = .actuator .lamp
  let covered := d.role = .actuator .coverDrive ∨ d.role = .actuator .purgeFan ∨ d.role = .sensor .coverPosition
  d.id = ⟨get8 bs 0, get8 bs 1, get8 bs 2⟩ ∧
  (match d.role with
    | .sensor q => get8 bs 3 = 0 ∧ get8 bs 4 = q.code
    | .actuator k => get8 bs 3 = 1 ∧ get8 bs 4 = k.code) ∧
  get8 bs 5 = (match d.zone with
    | some z => z.val
    | none => 0xFF) ∧
  get8 bs 6 = (match d.owner with
    | some w => w.code
    | none => 0xFF) ∧
  d.low = getS32 bs 7 ∧ d.high = getS32 bs 11 ∧ d.policy.code = get8 bs 15 ∧
  d.n = (if d.policy = .everyN then get16 bs 16 else 0) ∧ d.delta = (if d.policy = .onChange then get16 bs 16 else 0) ∧
  d.stale = get16 bs 18 ∧ (d.override = true ↔ get8 bs 20 = 1) ∧ d.strip = (if lamp then get8 bs 21 else 0) ∧
  d.lampClass.code = (if lamp then get8 bs 22 else 0) ∧ d.watts = (if lamp then get16 bs 23 else 0) ∧
  d.coverNo = if covered then get8 bs 25 else 0

/-! ### The cross-record checks: R10, Table 1-4 -/

/-- Nothing among the first records `l` of a bank's records `rs` fails check `n` of Table 1-4. -/
def checkHolds (rs : List Stored) (n : Nat) (l : List Stored) : Prop :=
  match n with
  | 1 => (l.filter fun x => x.record.isHall).length ≤ 1
  | 2 => (l.filter fun x => x.record.isPlant).length ≤ 1
  | 3 => ((pointsIn l).map (·.id)).Nodup
  | 4 => (((pointsIn l).filter fun d => d.role = .actuator .lamp ∧ d.owner = some .lighting).map (·.strip)).Nodup
  | 5 => (l.filterMap fun x =>
      match x.record with
      | .zone r => some (0, r.index.val)
      | .cover r => some (1, r.index.val)
      | .input r => some (2, r.index.val)
      | _ => none).Nodup
  | 6 => ∀ q z, ((pointsIn l).filter fun d => d.role = .sensor q ∧ d.zone = z).length ≤ 4
  | 7 => ∀ x ∈ l, ∀ r, x.record = .cover r → r.inUse = true → (zoneIn rs r.zoneNo).isSome = true ∧
      ∀ p ∈ [(Role.actuator .coverDrive, r.drive), (.sensor .coverPosition, r.position), (.actuator .purgeFan, r.fan)],
        ∃ d, pointIn rs p.2 = some d ∧ d.role = p.1 ∧ d.coverNo = r.index.val ∧ d.zone = some r.zoneNo
  | 8 => ∀ x ∈ l, ∀ r, x.record = .plant r → ∀ g ∈ [0, 1, 2, 3], g ∈ r.order
  | 9 => ∀ x ∈ l, ∀ r, x.record = .hall r → 61 ≤ r.supplyOff.prescale * r.supplyOff.count
  | 10 => ∀ x ∈ l, ∀ r, x.record = .zone r → r.inUse = true → r.setMin ≤ r.setMax ∧ r.hpOff < r.hpOn
  | _ => True

/-- A bank's records pass check `n`: none fails it, and checks 1 and 2 find their record. -/
def checkPasses (rs : List Stored) (n : Nat) : Prop :=
  checkHolds rs n rs ∧ (n = 1 → ∃ x ∈ rs, x.record.isHall = true) ∧ (n = 2 → ∃ x ∈ rs, x.record.isPlant = true)

/-! ### The laws of the banks: R5, R10 -/

/-- One bank is ACTIVE outside BYPASS and none in it; a bank is LOADING exactly while the load context names it; the
context counts the bank's records; a READY or ACTIVE bank passes every cross-record check. -/
def State.banksLawful (s : State) : Prop :=
  (s.runState = .bypass ↔ s.active = none) ∧
  (∀ b, (s.bank b).state = .active ↔ s.active = some b) ∧
  (∀ b, (s.bank b).state = .loading ↔ s.load.map (·.bank) = some b) ∧
  (∀ l, s.load = some l → l.expected = l.accepted ∧ l.accepted = (s.bank l.bank).records.length ∧
    l.accepted ≤ l.declared ∧ 2 ≤ l.declared ∧ l.declared ≤ 280) ∧
  (∀ b, (s.bank b).state = .empty → (s.bank b).records = []) ∧
  (∀ b, (s.bank b).state = .ready ∨ (s.bank b).state = .active → failedCheck (s.bank b).records = none)

/-! ### BYPASS: R166, R178, R181 -/

/-- In BYPASS no job holds anything: no table, zone, cover, lamp, supply or source state, no mode, no latch, and no job
timer runs. -/
def State.bypassQuiet (s : State) : Prop :=
  s.runState = .bypass →
    s.active = none ∧ s.table = [] ∧ (∀ z, s.zone z = Zone.start) ∧ (∀ c, s.cover c = Cover.blank) ∧ s.capacity = none ∧
    s.priority = [] ∧ s.lamps = [] ∧ (∀ z, s.supply z = none) ∧ s.mode = none ∧ s.dormantPending = false ∧
    s.watch.running = false ∧ s.silence.running = false ∧
    (∀ src, (s.source src).playing = none ∧ (s.source src).hold.running = false) ∧ (∀ i, (s.input i).latch = none)

/-! ### Lighting: R141, R145, R150, R151 -/

/-- Levels in 0..1000. -/
def Levels.inRange (v : Levels) : Prop :=
  (0 ≤ v.ambient ∧ v.ambient ≤ 1000) ∧ (0 ≤ v.underwater ∧ v.underwater ≤ 1000) ∧ (0 ≤ v.accent ∧ v.accent ≤ 1000)

/-- Every lamp record is that of a lamp of the strip, and no lamp has two (R144, R145). -/
def State.stripLawful (s : State) : Prop :=
  (s.lamps.map (·.id)).Nodup ∧
    ∀ r ∈ s.lamps, ∃ d, s.point r.id = some d ∧ d.role = .actuator .lamp ∧ d.owner = some .lighting

/-- Entry 0 of the palette is dark and every level lies in 0..1000, held ones too; a playing source's step lies below
its loop's length, and no length is over 64; the split lies in 0..96. -/
def State.lightingLawful (s : State) : Prop :=
  s.palette.entries[(0 : Fin 64)] = { ambient := 0, underwater := 0, accent := 0 } ∧
  (∀ e : Fin 64, s.palette.entries[e].inRange) ∧ (∀ v ∈ s.palette.held, 0 ≤ v ∧ v ≤ 1000) ∧
  (∀ src l k, (s.source src).playing = some (l, k) → k.val < (s.loop l).length) ∧
  (∀ l, (s.loop l).length ≤ 64) ∧ s.split ≤ 96

/-! ### Ages: R19 -/

/-- A point whose quality is GOOD has an age no greater than its stale limit. -/
def State.agesLawful (s : State) : Prop :=
  ∀ id d, s.point id = some d → (s.status id).quality = .good → (s.status id).age ≤ d.stale

/-! ### What an evaluation forms: R82 to R86, R92, R93 -/

/-- The zone's moisture fields, `a` before a computation and `v` after it, by the course of R86: the stages run on the means
of the usable air temperatures and RHs, and the margin is taken from the least usable surface temperature. `stale` says
whether some contributing point is STALE (R85). -/
def State.moistureFormed (s : State) (z : Fin 8) (stale : Prop) (a v : Zone) : Prop :=
  let air := meanOf (s.contributors .airTemp (some z))
  let rh := meanOf (s.contributors .airRh (some z))
  let surface := leastOf (s.contributors .surfaceTemp (some z))
  (air = none ∨ rh = none → s.course z = .held ∧ v.air = a.air ∧ v.rh = a.rh ∧ v.dew = a.dew ∧ v.margin = a.margin ∧
    v.marginValid = a.marginValid ∧ v.rangeT = a.rangeT ∧ v.dewLow = a.dewLow ∧ v.degraded = true) ∧
  ∀ t h, air = some t → rh = some h →
    let d := airStages t h
    v.air = d.temp ∧ v.rh = d.rh ∧ v.dew = d.dew ∧ v.dewLow = d.dewLow ∧ (v.degraded = true ↔ stale) ∧
    (surface = none → s.course z = .dewOnly ∧ v.marginValid = false ∧ v.margin = a.margin ∧ v.rangeT = d.clamped) ∧
    ∀ f, surface = some f → s.course z = .full ∧ v.marginValid = true ∧ v.margin = clampTo (-2000) 6000 f - d.dew ∧
      (v.rangeT = true ↔ d.clamped = true ∨ f < -2000 ∨ 6000 < f)

/-- A STALE point contributes to one of the quantities of a zone (R85). -/
def State.staleAmong (s : State) (z : Option (Fin 8)) (qs : List Quantity) : Prop :=
  ∃ q ∈ qs, ∃ p ∈ s.contributors q z, p.quality = .stale

/-- A zone's purge floors are the largest of the in-use covers of the zone whose purge runs, and 0 without one (R135). -/
def State.floorsFormed (s : State) (z : Fin 8) : Prop :=
  let runs (c : Fin 6) (r : CoverRec) : Prop :=
    s.coverRec c = some r ∧ r.zone = z.val ∧ (s.cover c).purge = .running ∧ (s.zoneRec z).isSome = true
  (∀ c r, runs c r → r.oaFloor ≤ (s.zone z).oaFloor ∧ r.fanFloor ≤ (s.zone z).fanFloor) ∧
  ((s.zone z).oaFloor = 0 ∨ ∃ c r, runs c r ∧ r.oaFloor = (s.zone z).oaFloor) ∧
  ((s.zone z).fanFloor = 0 ∨ ∃ c r, runs c r ∧ r.fanFloor = (s.zone z).fanFloor)

/-- Of the zones, an event may have changed the purge floors of one, which are formed afresh (R135). -/
def formsFloorsOf (z : Fin 8) (s t : State) : Prop :=
  t.floorsFormed z ∧ (∀ y, y ≠ z → t.zone y = s.zone y) ∧
    t.zone z = { s.zone z with oaFloor := (t.zone z).oaFloor, fanFloor := (t.zone z).fanFloor }

/-! ### Halts: R128 -/

/-- The definition `d` of a cover's drive point is a drive's, and the point serves nothing else: it is defined once and is the
drive or fan of no other cover, as the checks of Table 1-4 have it, and no lamp record stands under it (R144). -/
def State.ownDrive (s : State) (c : Fin 6) (r : CoverRec) (d : PointDef) : Prop :=
  d.role = .actuator .coverDrive ∧ (s.points.map (·.id)).Nodup ∧ s.lamp r.drive = none ∧
    (statusIn s.table r.drive).isSome = true ∧ ∀ j q, s.coverRec j = some q → q.fan ≠ r.drive ∧ (j ≠ c → q.drive ≠ r.drive)

/-- A moving cover of `s` has halted in `t` (R128): its travel timer is stopped, it is HALTED for the reason given and otherwise
as it was, its event is queued where there is room for every cover's, and its drive has SET 0 queued or is marked for
resend. -/
def haltedFor (s t : State) (c : Fin 6) (r : CoverRec) (why : HaltReason) (event : Nat) : Prop :=
  t.cover c = { s.cover c with state := .halted, haltReason := some why, travel := (s.cover c).travel.stop } ∧
  (s.upstream.length < 58 → ∃ n, hasNotice t .coverEvent c.val event (t.status r.position).value n) ∧
  ∀ d, s.point r.drive = some d → s.ownDrive c r d →
    hasSet t r.drive (clampTo d.low d.high 0) .cover ∨ (t.status r.drive).resend = true

/-- A climate output of a zone: the point is of a kind the Climate Engine drives, owned by it and in the zone (R108). -/
def climateOutput (z : Fin 8) (d : PointDef) : Prop :=
  (∃ k ∈ [ActKind.heatValve, .oaDamper, .supplyFan, .dehumStage], d.role = .actuator k) ∧ d.owner = some .climate ∧
    d.zone = some z

/-! ### DORMANT: R169 -/

/-- The hall is DORMANT only while no purge runs, no cover moves, no in-use zone's risk flag is set and no EVACUATE latch is
set. -/
def State.dormantQuiet (s : State) : Prop :=
  s.mode = some .dormant →
    (∀ c, (s.cover c).purge ≠ .running ∧ (s.cover c).state ≠ .closing ∧ (s.cover c).state ≠ .opening) ∧
    (∀ z, (s.zoneRec z).isSome = true → (s.zone z).risk = false) ∧ ∀ i, (s.input i).latch ≠ some .evacuate

/-! ### The plant: R117, R118 -/

/-- The grants of the eight zones together. -/
def State.grantSum (s : State) : Nat := (allZones.map fun z => (s.zone z).grant).sum

/-- The plant is shared out within its capacity and no zone has more than it asks. The other two parts say what makes it so:
while a bank is active the priority order holds every zone once, and every PLANT record of a bank lists four groups. -/
def State.plantLawful (s : State) : Prop :=
  s.grantSum ≤ s.effectiveCapacity ∧ (∀ z, (s.zone z).grant ≤ (s.zone z).request) ∧ (s.active ≠ none → s.priority.Perm allZones) ∧
  (∀ b, ∀ r ∈ (s.bank b).records, ∀ p, r.record = .plant p → p.order.length = 4)

end Sys2Proof.Machine
end

