-- ==== Sys2Proof/Certificates/Slice0/Obligations.lean ====
section
/-! DEFINITION. The statements for the provers, in the order of OBLIGATIONS.json. A statement about a command says that
exec answers a next state, and which. `s.taken` is the state once a frame for the part is taken (the run state and the
trunk-silence timer, stated by TakenFrameRestartsTrunkSilence); `settle` makes the deliveries to the Mode Controller
(stated by DeliveriesWakeOrRecheck); `reply` forms the REPLY (stated by EveryStationFrameIsAnswered). -/

open Sys2Proof Sys2Proof.Machine

/-! ### The step, power-on and the trunk -/

/-- A step is exec of the command at the front on the state with the queue's rest; an empty queue idles (log 2). -/
def Obligations.StepRunsFrontCommand : Prop :=
  (∀ c rest (s : State), step { s with pending := c :: rest } = exec c { s with pending := rest }) ∧
  ∀ s : State, step { s with pending := [] } = .next { s with pending := [] }

/-- POWER_ON leaves the part fresh, with the address of the straps and the debounced level of each pin; the queue of
commands is the model's own and stays (log 36). The reset state is the fresh part with straps and pins low (log 5) and
no command waiting, and every invariant stated below holds in it (R179). The settings inside a timer that was never
started, and the zone and cover records, the priority order and the dormant-pending flag that BYPASS holds, are the
model's choice (logs 6, 7). -/
def Obligations.PowerOnGivesFreshPart : Prop :=
  (∀ straps lines s, ∃ t, exec (.powerOn straps lines) s = .next t ∧ t.fresh ∧ t.trunkAddr.toNat = straps.toNat + 1 ∧
     (∀ i : Fin 8, (t.input i).debounced = (if lines.getLsb i then Level.high else Level.low) ∧
       (t.input i).level = (t.input i).debounced) ∧
     t.pending = s.pending) ∧
  (State.reset.fresh ∧ State.reset.trunkAddr = 1 ∧ State.reset.pending = [] ∧
     ∀ i : Fin 8, (State.reset.input i).debounced = .low) ∧
  (State.reset.queuesInBounds ∧ State.reset.banksLawful ∧ State.reset.bypassQuiet ∧ State.reset.lightingLawful ∧
     State.reset.agesLawful ∧ State.reset.stripLawful ∧ State.reset.plantLawful ∧
     State.reset.dormantQuiet ∧ ∀ i, State.reset.levelHeld i = false)

/-- A bad frame and a frame whose length is not its request's are counted and change nothing else; a frame for another
part changes nothing; while the part transmits, whatever the station sends is lost without count (R21, R23, R183; logs
9, 28). -/
def Obligations.FramesNotTakenChangeNothing : Prop :=
  ((∀ s, s.tx = .hunting → exec .badTrunkFrame s = .next { s with trunkCrc := min (s.trunkCrc + 1) 65535 }) ∧
   (∀ s, exec .foreignTrunkFrame s = .next s) ∧
   (∀ h s, s.tx = .hunting → exec (.loopback h []) s = .next { s with trunkCrc := min (s.trunkCrc + 1) 65535 }) ∧
   ∀ h n k body size s, s.tx = .hunting → recordSize k.toNat = some size → body.length ≠ size →
     exec (.loadRecord h n k body) s = .next { s with trunkCrc := min (s.trunkCrc + 1) 65535 }) ∧
  (∀ c s, fromTrunk c = true → s.tx ≠ .hunting → exec c s = .next s)

/-- Every SET and ADMIN frame and every frame of another kind is answered by one REPLY, whose header copies the
frame's and whose four common fields are filled from the state the handling left. The attention code is the first that
applies: protocol error, latched condition, queue. A request code that names no request and a frame of a kind the
trunk does not take are refused and set the protocol error. The statuses are coded 0 to 5 and the reasons 1 to 36, each
written out (R22, R24, R25, R183, R184, R191, Table 12-4). -/
def Obligations.EveryStationFrameIsAnswered : Prop :=
  (∀ c h s, replyHdr c = some h → s.tx = .hunting →
     ∃ (t : State) (f : Frame) (a : Answer), exec c s = .next { t with tx := .reply f } ∧ f.addr = s.trunkAddr ∧ f.kind = 0x51 ∧ f.seg = h.seg ∧
       f.node = h.node ∧ f.chan = h.chan ∧ f.seq = h.seq ∧ f.more = false ∧
       f.service = decide (32 ≤ t.upstream.length) ∧
       f.payload = [byteOf a.status.code, byteOf ((a.reason.map Reason.code).getD 0), byteOf t.attention,
         byteOf t.upstream.length] ++ a.body ∧
       (a.reason.isSome ↔ a.status = .refused ∨ a.status = .held ∨ a.status = .deferred)) ∧
  (∀ s : State,
     (s.protocolError = true → s.attention = 3) ∧
     (s.protocolError = false → (∃ c, s.latched.holds c = true) → s.attention = 2) ∧
     (s.protocolError = false → (∀ c, s.latched.holds c = false) → s.upstream ≠ [] → s.attention = 1) ∧
     (s.protocolError = false → (∀ c, s.latched.holds c = false) → s.upstream = [] → s.attention = 0)) ∧
  (∀ h (b : Byte) s, s.tx = .hunting →
     exec (.unknownRequest h b) s =
       .next ({ s.taken with protocolError := true }.reply h false (.no .unknownRequest)) ∧
     exec (.trunkFrameOtherKind h b) s = .next ({ s.taken with protocolError := true }.reply h false (.no .kind))) ∧
  [Status.accepted, .deferred, .refused, .forwarded, .forwardedClamped, .held].map Status.code = [0, 1, 2, 3, 4, 5] ∧
  [Reason.owned, .absent, .queueFull, .notRunning, .unknown, .range, .kind, .unknownRequest].map Reason.code =
    [1, 2, 3, 4, 5, 6, 7, 8] ∧
  [Reason.state, .busy, .bankActive, .bankState, .sequence, .badField, .badTable, .full].map Reason.code =
    [9, 10, 11, 12, 13, 14, 15, 16] ∧
  [Reason.count, .table, .restarted, .replaced, .autonomous].map Reason.code = [17, 18, 19, 20, 21] ∧
  [Reason.mode, .occupied, .sensor, .dark, .stopped, .purge, .covers, .moving, .condensation, .evacuate].map Reason.code =
    [22, 23, 24, 25, 26, 27, 28, 29, 30, 31] ∧
  [Reason.empty, .noMark, .idle, .loopInUse, .stillActive].map Reason.code = [32, 33, 34, 35, 36]

/-- Outside BYPASS every frame the part takes leaves it RUNNING with the trunk-silence timer at its full minute, but
for a HALT that is taken; in BYPASS a frame starts nothing, but for a GO that is taken (R23, R182). -/
def Obligations.TakenFrameRestartsTrunkSilence : Prop :=
  ∀ c s t, (replyHdr c).isSome = true ∨ (∃ h, c = .poll h) → s.tx = .hunting → exec c s = .next t →
    (s.runState ≠ .bypass → t.runState = .running ∧
        t.silence = { running := true, prescale := 60, setting := 1, prescaler := 60, count := 1 } ∨
      t.runState = .bypass ∧ t.silence.running = false ∧ ∃ h, c = .halt h) ∧
    (s.runState = .bypass → t.runState = .bypass ∧ t.silence = s.silence ∨ ∃ h b, c = .go h b)

/-! ### Draining the Upstream Queue -/

/-- A POLL begins with the oldest entry, removed from the queue; an empty queue is answered by the REPLY alone. The
end of a frame brings the next entry, up to eight, and then the REPLY with MORE; the end of a REPLY ends the answer.
An entry goes out as a SAMPLE with the node's sequence, its payload and the quality byte, as an ECHO with the
station's sequence and the node's payload, or as a NOTICE with segment, node and channel 0 (R22, R26, R27). -/
def Obligations.PollSendsOldestEntry : Prop :=
  ((∀ h s e rest, s.tx = .hunting → s.upstream = e :: rest →
     exec (.poll h) s = .next { s.taken with upstream := rest, tx := .entry 1 h (s.entryFrame e) }) ∧
   (∀ h s, s.tx = .hunting → s.upstream = [] → exec (.poll h) s = .next (s.taken.reply h false (.ok []))) ∧
   (∀ n h f s e rest, s.tx = .entry n h f → s.upstream = e :: rest → n < 8 →
     exec .trunkFrameSent s = .next { s with upstream := rest, tx := .entry (n + 1) h (s.entryFrame e) }) ∧
   (∀ n h f s, s.tx = .entry n h f → s.upstream ≠ [] → 8 ≤ n →
     exec .trunkFrameSent s = .next (s.reply h true (.ok []))) ∧
   (∀ n h f s, s.tx = .entry n h f → s.upstream = [] → exec .trunkFrameSent s = .next (s.reply h false (.ok []))) ∧
   (∀ f s, s.tx = .reply f → exec .trunkFrameSent s = .next { s with tx := .hunting }) ∧
   ∀ s, s.tx = .hunting → exec .trunkFrameSent s = .next s) ∧
  (∀ s : State,
     (∀ id seq v st q, s.entryFrame (.sample id seq v st q) =
       { addr := s.trunkAddr, kind := 0x11, seg := BitVec.ofNat 4 id.seg, service := false, more := false
         node := byteOf id.node, chan := byteOf id.chan, seq := seq, payload := s32 v ++ [st, byteOf q.code] }) ∧
     (∀ id seq v st, s.entryFrame (.echo id seq v st) =
       { addr := s.trunkAddr, kind := 0x23, seg := BitVec.ofNat 4 id.seg, service := false, more := false
         node := byteOf id.node, chan := byteOf id.chan, seq := seq, payload := s32 v ++ [st] }) ∧
     ∀ k n a b seq, s.entryFrame (.notice ⟨k, n, a, b, seq⟩) =
       { addr := s.trunkAddr, kind := 0x60, seg := 0, service := false, more := false, node := 0, chan := 0, seq := seq
         payload := [byteOf k.code] ++ u16 n ++ s32 a ++ s32 b })

/-- A POLL's whole answer: with nothing else between, the entries go out oldest first, one at each end of a frame, and
after the eighth or the last the REPLY follows, MORE set when entries remain (R26). -/
def Obligations.PollDrainsUpToEight : Prop :=
  ∀ h s, s.tx = .hunting →
    (∀ i (hi : i < s.upstream.length), i < 8 →
      execAll (.poll h :: List.replicate i .trunkFrameSent) s =
        .next { s.taken with
          upstream := s.upstream.drop (i + 1), tx := .entry (i + 1) h (s.entryFrame s.upstream[i]) }) ∧
    execAll (.poll h :: List.replicate (min 8 s.upstream.length) .trunkFrameSent) s =
      .next ({ s.taken with upstream := s.upstream.drop 8 }.reply h (decide (8 < s.upstream.length)) (.ok []))

/-- A NOTICE or ECHO offered to the queue is appended, or evicts the oldest SAMPLE and marks its sensor, or is an
overrun; a notice takes its number in each case (R50). A SAMPLE offered to the queue replaces its point's entry in
place whatever the depth, or is appended, or is discarded; it evicts nothing, and the answer says whether it counts as
forwarded: the point's forwarded value and age are then written, and otherwise forward-missed is set (R49). -/
def Obligations.UpstreamOffersAppendEvictOrOverrun : Prop :=
  ((∀ (e : UpEntry) (s : State), s.upstream.length < 64 → s.offer e = { s with upstream := s.upstream ++ [e] }) ∧
   (∀ (e : UpEntry) (s : State) a x b id, 64 ≤ s.upstream.length → s.upstream = a ++ x :: b → x.sampleId = some id →
     (∀ y ∈ a, y.sampleId = none) →
     ((∀ d, s.point id = some d → d.isSensor = true →
         s.offer e = { s with upstream := a ++ b ++ [e] }.modStatus id fun st => { st with missed := true }) ∧
       ((∀ d, s.point id = some d → d.isSensor = false) → s.offer e = { s with upstream := a ++ b ++ [e] }))) ∧
   (∀ (e : UpEntry) (s : State), 64 ≤ s.upstream.length → (∀ y ∈ s.upstream, y.sampleId = none) →
     s.offer e = { s with overrun := min (s.overrun + 1) 65535, latched := { s.latched with queueOverrun := true } }) ∧
   ∀ k n a b (s : State), s.notice k n a b =
     { s with noticeSeq := s.noticeSeq + 1 }.offer (.notice ⟨k, n, a, b, s.noticeSeq⟩)) ∧
  (∀ (s : State) id seq v st q,
     (∀ a x b, s.upstream = a ++ x :: b → x.sampleId = some id → (∀ y ∈ a ++ b, y.sampleId ≠ some id) →
       s.offerSample id seq v st q = ({ s with upstream := a ++ .sample id seq v st q :: b }, true)) ∧
     ((∀ y ∈ s.upstream, y.sampleId ≠ some id) → s.upstream.length < 64 →
       s.offerSample id seq v st q = ({ s with upstream := s.upstream ++ [.sample id seq v st q] }, true)) ∧
     ((∀ y ∈ s.upstream, y.sampleId ≠ some id) → 64 ≤ s.upstream.length → s.offerSample id seq v st q = (s, false)) ∧
     ∀ r : PointStatus, r.offered true v = { r with forwarded := v, forwardAge := 0, missed := false } ∧
       r.offered false v = { r with missed := true })

/-! ### Management requests -/

/-- IDENTIFY and LOOPBACK in every run state (R185). -/
def Obligations.IdentifyAndLoopback : Prop :=
  ∀ h data s, s.tx = .hunting →
    exec (.identify h) s = .next (s.taken.reply h false ⟨.accepted, none, [0x49, 0x02, 0x64, 0x01, s.trunkAddr]⟩) ∧
    (1 ≤ data.length → data.length ≤ 36 →
      exec (.loopback h data) s = .next (s.taken.reply h false ⟨.accepted, none, data⟩)) ∧
    (37 ≤ data.length → exec (.loopback h data) s = .next (s.taken.reply h false ⟨.refused, some .range, []⟩)) ∧
    { s.taken with runState := s.runState, silence := s.silence } = s

/-- READ_STATUS answers its two pages of at most 32 bytes and clears the protocol error once the body is formed;
another page is refused (R186, R192; log 27). The body holds 63 bytes, written out field by field: 15 for the part,
eight for each segment (the CRC and miss counts, and how many nodes are PRESENT and newly joined) and two for each
input (its debounced level, HIGH 0 and LOW 1, and whether its latch is set). Bits 0 to 6 of the latched-condition byte are
the conditions of Table 11-4 in their order and bit 7 is 0; the codes of the enumerations of this read, of the other reads
and of the notices are written out (R191). The sizes of its fields (log 22), the two bytes 0 and 0xFF of an active bank
that is none (log 21) and the byte 0 of dormant-pending in BYPASS (log 53) are the model's. -/
def Obligations.ReadStatusReportsAndClears : Prop :=
  (∀ h page s, s.tx = .hunting →
    s.taken.statusBytes.length = 63 ∧
    (page.toNat = 0 → exec (.readStatus h page) s =
      .next ({ s.taken with protocolError := false }.reply h false
        ⟨.accepted, none, [0, 1] ++ s.taken.statusBytes.take 32⟩)) ∧
    (page.toNat = 1 → exec (.readStatus h page) s =
      .next ({ s.taken with protocolError := false }.reply h false
        ⟨.accepted, none, [1, 1] ++ s.taken.statusBytes.drop 32⟩)) ∧
    (2 ≤ page.toNat → exec (.readStatus h page) s = .next (s.taken.reply h false ⟨.refused, some .range, []⟩)) ∧
    s.statusBytes.take 15 =
      [byteOf s.runState.code, (match s.mode with | some m => byteOf m.code | none => 0xFF), flagByte s.dormantPending,
        byteOf (s.bank 0).state.code, byteOf (s.bank 1).state.code, 0,
        (match s.active with | some b => byteOf b.val | none => 0xFF), s.latched.byte, flagByte s.protocolError] ++
      u16 s.overrun ++ u16 s.clamps ++ u16 s.trunkCrc ∧
    s.statusBytes.drop 15 =
      (([0, 1, 2, 3] : List (Fin 4)).flatMap fun g =>
        u16 (s.segment g).crcCount ++ u16 (s.segment g).missCount ++
        u16 ((s.segment g).nodes.toList.filter fun n => n.state = .present).length ++
        u16 ((s.segment g).nodes.toList.filter fun n => n.joined).length) ++
      (([0, 1, 2, 3, 4, 5, 6, 7] : List (Fin 8)).flatMap fun i =>
        [if (s.input i).debounced = .high then 0 else 1, if (s.input i).latch.isSome = true then 1 else 0])) ∧
  (∀ l : Latched,
    l.byte.getLsbD 0 = l.queueOverrun ∧ l.byte.getLsbD 1 = l.condensation ∧ l.byte.getLsbD 2 = l.plantShort ∧
    l.byte.getLsbD 3 = l.coverFault ∧ l.byte.getLsbD 4 = l.purgeFailed ∧ l.byte.getLsbD 5 = l.loadAbandoned ∧
    l.byte.getLsbD 6 = l.input ∧ l.byte.getLsbD 7 = false) ∧
  ([RunState.bypass, .running, .autonomous].map RunState.code = [0, 1, 2] ∧
   [Mode.openHall, .staffed, .night, .dormant].map Mode.code = [0, 1, 2, 3] ∧
   [BankState.empty, .loading, .ready, .active].map BankState.code = [0, 1, 2, 3] ∧
   [Quality.unknown, .good, .suspect, .stale, .lost].map Quality.code = [0, 1, 2, 3, 4] ∧
   [QualityByte.good, .suspectRange, .suspectStatus, .unlisted, .notSensor].map QualityByte.code = [0, 1, 2, 3, 4] ∧
   [ActStatus.applied, .limited, .localHand, .fault].map ActStatus.code = [0, 1, 2, 3] ∧
   [Quantity.airTemp, .airRh, .waterTemp, .surfaceTemp, .outdoorTemp, .outdoorRh, .occupancy, .coverPosition,
     .generic].map Quantity.code = [0, 1, 2, 3, 4, 5, 6, 7, 8] ∧
   [ActKind.heatValve, .oaDamper, .dehumStage, .supplyFan, .purgeFan, .coverDrive, .lamp, .lampSupply,
     .generic].map ActKind.code = [0, 1, 2, 3, 4, 5, 6, 7, 8] ∧
   [Owner.station, .climate, .cover, .lighting].map Owner.code = [0, 1, 2, 3] ∧
   [Policy.all, .everyN, .onChange, .none].map Policy.code = [0, 1, 2, 3] ∧
   [LampClass.ambient, .underwater, .accent].map LampClass.code = [0, 1, 2] ∧
   [Strategy.none, .outdoorAir, .heatPump].map Strategy.code = [0, 1, 2] ∧
   [CoverState.opened, .closing, .closed, .opening, .halted, .fault].map CoverState.code = [0, 1, 2, 3, 4, 5] ∧
   [HaltReason.command, .sensor, .occupied, .dark, .stopped, .derived, .reset].map HaltReason.code =
     [0, 1, 2, 3, 4, 5, 6] ∧
   [PurgeState.idle, .waiting, .running].map PurgeState.code = [0, 1, 2] ∧
   [SupplyState.off, .powering, .on, .stopping].map SupplyState.code = [0, 1, 2, 3] ∧
   [Action.noticeOnly, .evacuate, .coverStop, .plantTrip, .requestNight, .requestStaffed].map Action.code =
     [0, 1, 2, 3, 4, 5] ∧
   [NoticeKind.nodeJoined, .nodeLost, .pointLost, .condensationSet, .condensationClear, .plantShort, .coverEvent, .purgeDone,
     .purgeFailed, .inputLatched, .inputReleased, .modeChanged, .bankSwitched, .loadAbandoned].map NoticeKind.code =
     [1, 2, 3, 4, 5, 6, 7, 8, 9, 10, 11, 12, 13, 14])

/-- The reads that name a record. In BYPASS the reads of job state are refused NOT_RUNNING; an index out of range is
refused RANGE; otherwise the answer is one page of the record's bytes. READ_PALETTE answers in every run state. No
read changes anything but through its own frame. A page is the next 32 bytes after its number and the last page's, and
a page above the last is refused RANGE; the bytes of a point, a zone, a cover and a source are written out field by
field, a cover not in use 17 zeros; a timer remainder is the count of base ticks left (R81, R141, R187, R192). The
sizes of the fields, the bytes of none and the code of the HP stage and the override are the model's reading (logs 21,
22, 23, 49). -/
def Obligations.ReadsReportRecords : Prop :=
  ((∀ h a b s, s.tx = .hunting → s.runState = .bypass →
     exec (.readPoint h a b) s = .next (s.reply h false (.no .notRunning)) ∧
     exec (.readZone h a b) s = .next (s.reply h false (.no .notRunning)) ∧
     exec (.readCover h a b) s = .next (s.reply h false (.no .notRunning)) ∧
     exec (.readSource h a) s = .next (s.reply h false (.no .notRunning))) ∧
   (∀ h (k : Byte) page s, s.tx = .hunting → s.runState ≠ .bypass →
     (∀ d, s.points[k.toNat]? = some d →
       exec (.readPoint h k page) s = .next (s.taken.reply h false (pageAnswer page (s.pointBytes d)))) ∧
     (s.points.length ≤ k.toNat → exec (.readPoint h k page) s = .next (s.taken.reply h false (.no .range))) ∧
     (∀ z : Fin 8, k.toNat = z.val →
       exec (.readZone h k page) s = .next (s.taken.reply h false (pageAnswer page (s.zoneRead z)))) ∧
     (8 ≤ k.toNat → exec (.readZone h k page) s = .next (s.taken.reply h false (.no .range))) ∧
     (∀ c : Fin 6, k.toNat = c.val →
       exec (.readCover h k page) s = .next (s.taken.reply h false (pageAnswer page (s.coverRead c)))) ∧
     (6 ≤ k.toNat → exec (.readCover h k page) s = .next (s.taken.reply h false (.no .range))) ∧
     (k.toNat = 0 → exec (.readSource h k) s = .next (s.taken.reply h false (.ok (sourceBytes s.sourceA)))) ∧
     (k.toNat = 1 → exec (.readSource h k) s = .next (s.taken.reply h false (.ok (sourceBytes s.sourceB)))) ∧
     (2 ≤ k.toNat → exec (.readSource h k) s = .next (s.taken.reply h false (.no .range)))) ∧
   ∀ h (k : Byte) s, s.tx = .hunting →
     (∀ e : Fin 64, k.toNat = e.val →
       exec (.readPalette h k) s = .next (s.taken.reply h false
         (.ok (s16 (s.palette.entries[e]).ambient ++ s16 (s.palette.entries[e]).underwater ++
           s16 (s.palette.entries[e]).accent)))) ∧
     (64 ≤ k.toNat → exec (.readPalette h k) s = .next (s.taken.reply h false (.no .range)))) ∧
  ((∀ (page : Byte) (bs : List Byte), page.toNat ≤ (bs.length - 1) / 32 →
     pageAnswer page bs = .ok ([page, byteOf ((bs.length - 1) / 32)] ++ (bs.drop (32 * page.toNat)).take 32)) ∧
   (∀ (page : Byte) (bs : List Byte), (bs.length - 1) / 32 < page.toNat → pageAnswer page bs = .no .range) ∧
   (∀ (s : State) c, s.coverRec c = none → s.coverRead c = List.replicate 17 0) ∧
   ∀ t : Timer, t.remaining = if t.running then (t.count - 1) * t.prescale + t.prescaler else 0) ∧
  ((∀ (s : State) d,
     let r := s.status d.id
     s.pointBytes d = [byteOf d.id.seg, byteOf d.id.node, byteOf d.id.chan] ++
       (match d.role with
         | .sensor q => [0, byteOf q.code, 0]
         | .actuator k => [1, 0, byteOf k.code] : List Byte) ++
       (match d.zone with
         | some z => s16 z.val
         | none => [0, 0xFF] : List Byte) ++
       [match d.owner with
         | some w => byteOf w.code
         | none => (0xFF : Byte)] ++
       s32 d.low ++ s32 d.high ++ [byteOf d.policy.code] ++ u16 d.n ++ u16 d.delta ++ u16 d.stale ++
       [if d.override then (1 : Byte) else 0] ++ u16 d.strip ++ [byteOf d.lampClass.code] ++ u16 d.watts ++ u16 d.coverNo ++
       s32 r.value ++ [byteOf r.quality.code] ++ u16 r.age ++ u16 r.counter ++ s32 r.forwarded ++ u16 r.forwardAge ++
       [if r.missed then (1 : Byte) else 0] ++
       s32 (match r.commanded with
         | some v => v
         | none => 0) ++
       [match r.origin with
         | some w => byteOf w.code
         | none => (0xFF : Byte),
        match r.status with
         | some a => byteOf a.code
         | none => 0xFF] ++
       u16 r.misses ++ u16 r.late ++ [if r.resend then (1 : Byte) else 0] ++
       (match s.lamp d.id with
         | some l => s16 l.start ++ s16 l.target ++ u16 l.fade ++ u16 l.elapsed ++ [if l.deferred then (1 : Byte) else 0] ++
             s16 l.expected
         | none => [] : List Byte)) ∧
   (∀ (s : State) z,
     let v := s.zone z
     let o := s.outdoor
     let flag (b : Bool) : Byte := if b then 1 else 0
     let sent (x : Option Int) : List Byte := match x with
       | some n => s16 n
       | none => [0, 0xFF]
     s.zoneRead z = s16 v.air ++ s16 v.rh ++ s16 v.dew ++ s16 v.margin ++
       [flag v.marginValid, flag v.degraded, flag v.rangeT, flag v.dewLow] ++ s32 v.water ++ [flag v.waterUsable] ++
       s16 v.setpoint ++ [flag v.setpointValid] ++ s16 v.dehum ++ s16 v.heat ++
       [flag v.risk, byteOf v.strategy.code, flag v.hp] ++ u16 v.starved ++ u16 v.unstarved ++ [flag v.plantShort] ++
       u16 v.request ++ u16 v.grant ++ s32 v.lampLoad ++ sent v.lastValve ++ sent v.lastOa ++ sent v.lastFan ++
       sent v.lastStage ++ u16 v.refresh ++ [flag v.occupied] ++ u16 v.oaFloor ++ u16 v.fanFloor ++ s16 v.trim ++
       [flag v.override, flag o.usable] ++ s16 o.temp ++ s16 o.rh ++ s16 o.dew ++ [flag o.rangeT, flag o.dewLow] ++
       u16 (s.capacity.getD 0) ++ u16 s.effectiveCapacity ++ u16 v.evalTimer.remaining ++ u16 v.holdTimer.remaining ++
       (match s.supply z with
         | some m => u16 m.offDelay.remaining ++ [byteOf m.state.code]
         | none => [0, 0, 0xFF] : List Byte)) ∧
   (∀ (s : State) c, (s.coverRec c).isSome = true →
     let v := s.cover c
     let flag (b : Bool) : Byte := if b then 1 else 0
     s.coverRead c =
       [1, byteOf v.state.code,
        match v.haltReason with
          | some why => byteOf why.code
          | none => 0xFF,
        flag v.derivePending, flag v.openPending, byteOf v.purge.code, flag v.valid, flag v.runFailed,
        flag v.confirmed] ++
       u16 v.travel.remaining ++ u16 v.interval.remaining ++ u16 v.duration.remaining ++ u16 v.validity.remaining) ∧
   ∀ v : Source,
     sourceBytes v = (match v.playing with
       | some (l, k) => [1, byteOf l.val, byteOf k.val]
       | none => [0, 0xFF, 0xFF]) ++ u16 v.hold.remaining)

/-- ACKNOWLEDGE of kind NODE clears the newly-joined flag of the node named, whatever its state, and nothing else; an
index that names no node is refused. ACKNOWLEDGE of a condition's kind clears that condition, set or not, and nothing
else, whatever the index; a code that names no kind is refused (R37, R188). -/
def Obligations.AcknowledgeNodeOrCondition : Prop :=
  (∀ h (index : Byte) s, s.tx = .hunting →
     (∀ (g : Fin 4) (n : Fin 31), index.toNat = g.val * 32 + n.val →
       exec (.acknowledgeNode h index) s = .next ((s.taken.setSegment g
         { s.segment g with nodes := (s.segment g).nodes.set n { (s.segment g).nodes[n] with joined := false } }).reply h
           false (.ok []))) ∧
     (3 < index.toNat / 32 ∨ 30 < index.toNat % 32 →
       exec (.acknowledgeNode h index) s = .next (s.taken.reply h false (.no .range)))) ∧
  (∀ h (kind index : Byte) s, s.tx = .hunting →
     (∀ p ∈ [(2, Condition.queueOverrun), (3, .condensation), (4, .plantShort), (5, .coverFault), (6, .purgeFailed),
         (7, .loadAbandoned)], kind.toNat = p.1 →
       ∃ u : State, exec (.acknowledgeCondition h kind index) s = .next (u.reply h false (.ok [])) ∧
         u = { s.taken with latched := u.latched } ∧
         ∀ c, u.latched.holds c = (if c = p.2 then false else s.latched.holds c)) ∧
     (8 ≤ kind.toNat → exec (.acknowledgeCondition h kind index) s = .next (s.taken.reply h false (.no .range))))

/-- ACKNOWLEDGE of kind INPUT: an index out of range is refused; a clear latch is left as it is; a latch an active
EDGE_AND_LEVEL line holds is refused STILL_ACTIVE and stays; any other latch clears and its held action ends: the last
EVACUATE cleared retargets every lamp of the strip, the last PLANT_TRIP cleared gives the plant back in one pass, and
any other latch ends nothing. Then its INPUT_RELEASED is queued where there is room, and no other line changes (the
notice after the action's end is log 20). The INPUT condition goes when no latch is left set. The deliveries to the
Mode Controller follow (R116, R119, R163, R171, R176, R177, R188). -/
def Obligations.AcknowledgeInput : Prop :=
  ∀ h (index : Byte) s, s.tx = .hunting →
    let unlatched (t : State) : State :=
      if ∃ j, (t.input j).latch.isSome = true then t else { t with latched := { t.latched with input := false } }
    (8 ≤ index.toNat → exec (.acknowledgeInput h index) s = .next (s.taken.reply h false (.no .range))) ∧
    ∀ i : Fin 8, index.toNat = i.val →
      ((s.input i).latch = none →
        exec (.acknowledgeInput h index) s = .next ((unlatched s.taken).reply h false (.ok []))) ∧
      (∀ a, (s.input i).latch = some a → s.levelHeld i = true →
        exec (.acknowledgeInput h index) s = .next (s.taken.reply h false (.no .stillActive))) ∧
      ∀ a, (s.input i).latch = some a → s.levelHeld i = false →
        let x := s.taken.setInput i { s.input i with latch := none }
        let last := ∀ j, j ≠ i → (s.input j).latch ≠ some a
        let back := a = .plantTrip ∧ last ∧ s.capacity ≠ none ∧ s.capacity ≠ some 0
        let y := if a = .evacuate ∧ last then x.retargetAll else if back then x.allocate else x
        ∃ u : State, exec (.acknowledgeInput h index) s = .next (u.reply h false (.ok [])) ∧
          u = settle s.taken (unlatched (y.notice .inputReleased i.val a.code 0)) ∧
          (a = .evacuate → last → ∀ id d l, s.point id = some d → s.lamp id = some l →
            ∃ l', y.lamp id = some l' ∧ l'.target = (x.governing d).1) ∧
          (back → ∀ k, s.capacity = some k → x.effectiveCapacity = k) ∧
          (∀ j, u.input j = if j = i then { s.input i with latch := none } else s.input j) ∧
          (u.latched.input = true ↔ s.latched.input = true ∧ ∃ j, j ≠ i ∧ (s.input j).latch.isSome = true) ∧
          (s.upstream.length < 64 → a ≠ .evacuate →
            hasNotice u .inputReleased i.val a.code 0 s.noticeSeq) ∧
          (s.upstream.length < 58 → ∃ n, hasNotice u .inputReleased i.val a.code 0 n) ∧
          sameStation s u ∧ sameSources s u ∧ samePlant s u ∧ sameLink s u ∧ sameTrims s u ∧ sameStatuses s u ∧
          u.echoes = s.echoes ∧ keepsNotices s u

/-- PALETTE_POINTER, in every run state: an entry out of range is refused, and another becomes the pointer's, its
class AMBIENT and the holding triple empty. PALETTE_WRITE: a count outside 1..19 is refused; otherwise each value in
its order is clamped and held, and the third of a triple commits it to the pointer's entry, but not to entry 0, and
moves the pointer on; the reply carries the pointer. `values` is taken one by one by `Palette.write`, whose cases are
the second part (R142, R143). -/
def Obligations.PaletteRequestsMoveHoldAndCommit : Prop :=
  (∀ h (entry : Byte) s, s.tx = .hunting →
     (∀ e : Fin 64, entry.toNat = e.val →
       exec (.palettePointer h entry) s = .next ({ s.taken with
         palette := { s.palette with entry := e, lampClass := .ambient, held := [] } }.reply h false (.ok []))) ∧
     (64 ≤ entry.toNat → exec (.palettePointer h entry) s = .next (s.taken.reply h false (.no .range)))) ∧
  ((∀ h (values : List Int) s, s.tx = .hunting →
     ((values.length < 1 ∨ 19 < values.length) →
       exec (.paletteWrite h values) s = .next (s.taken.reply h false (.no .range))) ∧
     (1 ≤ values.length → values.length ≤ 19 →
       exec (.paletteWrite h values) s = .next ({ s.taken with palette := s.palette.write values }.reply h false
         (.ok [byteOf (s.palette.write values).entry.val, byteOf (s.palette.write values).lampClass.code])))) ∧
   (∀ p : Palette, p.write [] = p) ∧
   (∀ (p : Palette) (v : Int) (rest : List Int),
     (p.lampClass = .ambient →
       p.write (v :: rest) =
         { p with lampClass := .underwater, held := p.held ++ [clampTo 0 1000 v] }.write rest) ∧
     (p.lampClass = .underwater →
       p.write (v :: rest) = { p with lampClass := .accent, held := p.held ++ [clampTo 0 1000 v] }.write rest) ∧
     (∀ a u, p.lampClass = .accent → p.held = [a, u] → p.entry ≠ 0 →
       p.write (v :: rest) =
         { entries := p.entries.set p.entry { ambient := a, underwater := u, accent := clampTo 0 1000 v }
           entry := p.entry + 1, lampClass := .ambient, held := [] : Palette }.write rest) ∧
     (p.lampClass = .accent → p.entry = 0 →
       p.write (v :: rest) = { p with entry := 1, lampClass := .ambient, held := [] }.write rest)) ∧
   (63 : Fin 64) + 1 = 0 ∧
   ∀ v : Int, clampTo 0 1000 v = if v < 0 then 0 else if v > 1000 then 1000 else v)

/-- LOOP_WRITE stores every record from the first step on, with the hold count of an indefinite hold as 1, and leaves
the length and the other steps and loops; it is refused RANGE in the cases of R150 and LOOP_IN_USE while a source
plays the loop. LOOP_LENGTH sets the length alone and is refused likewise (R150, R151). -/
def Obligations.LoopRequestsStoreOrRefuse : Prop :=
  (∀ h (loop first : Byte) (steps : List StepRecord) s, s.tx = .hunting →
    (3 < loop.toNat ∨ 63 < first.toNat ∨ steps.length < 1 ∨ 6 < steps.length ∨ 64 < first.toNat + steps.length ∨
        (∃ r ∈ steps, 63 < r.scene ∨ 600 < r.fade ∨ 64 < r.prescale ∨ (r.prescale ≠ 0 ∧ (r.count < 1 ∨ 256 < r.count))) →
      exec (.loopWrite h loop first steps) s = .next (s.taken.reply h false (.no .range))) ∧
    ∀ l : Fin 4, loop.toNat = l.val → 1 ≤ steps.length → steps.length ≤ 6 → first.toNat + steps.length ≤ 64 →
      (∀ r ∈ steps, r.scene ≤ 63 ∧ r.fade ≤ 600 ∧ r.prescale ≤ 64 ∧ (r.prescale ≠ 0 → 1 ≤ r.count ∧ r.count ≤ 256)) →
      ((∃ src k, (s.source src).playing = some (l, k)) →
        exec (.loopWrite h loop first steps) s = .next (s.taken.reply h false (.no .loopInUse))) ∧
      ((∀ src k, (s.source src).playing ≠ some (l, k)) →
        ∃ v : Loop, exec (.loopWrite h loop first steps) s = .next ((s.taken.setLoop l v).reply h false (.ok [])) ∧
          v.length = (s.loop l).length ∧
          ∀ k : Fin 64, v.steps[k] =
            match steps[k.val - first.toNat]? with
            | some r => if first.toNat ≤ k.val then (if r.prescale = 0 then { r with count := 1 } else r)
              else (s.loop l).steps[k]
            | none => (s.loop l).steps[k])) ∧
  ∀ h (loop length : Byte) s, s.tx = .hunting →
    (3 < loop.toNat ∨ 64 < length.toNat →
      exec (.loopLength h loop length) s = .next (s.taken.reply h false (.no .range))) ∧
    ∀ l : Fin 4, loop.toNat = l.val → length.toNat ≤ 64 →
      ((∃ src k, (s.source src).playing = some (l, k)) →
        exec (.loopLength h loop length) s = .next (s.taken.reply h false (.no .loopInUse))) ∧
      ((∀ src k, (s.source src).playing ≠ some (l, k)) →
        exec (.loopLength h loop length) s =
          .next ((s.taken.setLoop l { s.loop l with length := length.toNat }).reply h false (.ok [])))

/-- LOAD_BEGIN: the refusals in their order; otherwise a load in progress is abandoned first, RESTARTED on the bank
named and REPLACED on the other, and the bank becomes LOADING with no records under a new context (R7). An abandoned
load: the LOADING bank EMPTY without records, the context discarded, LOAD_ABANDONED latched and its notice offered
with the bank, the reason and the record (R6). LOAD_END: no bank LOADING; another count than the declared; the first
failed cross-record check with its record; and otherwise the bank READY and the context discarded (R9). The ten checks
are those of Table 1-4, and the record named is the one that first takes a check over what it allows, or none where
the HALL or PLANT record is missing (R10). R7 is stated whole, R6, R9 and R10 in part. -/
def Obligations.LoadBeginAndEndMakeOrAbandon : Prop :=
  (∀ h (bank : Byte) (count : BitVec 16) s, s.tx = .hunting →
     (2 ≤ bank.toNat ∨ count.toNat < 2 ∨ 280 < count.toNat →
       exec (.loadBegin h bank count) s = .next (s.taken.reply h false (.no .range))) ∧
     ∀ b : Fin 2, bank.toNat = b.val → 2 ≤ count.toNat → count.toNat ≤ 280 →
       ((s.bank b).state = .active →
         exec (.loadBegin h bank count) s = .next (s.taken.reply h false (.no .bankActive))) ∧
       ((s.bank b).state ≠ .active → s.load = none →
         exec (.loadBegin h bank count) s =
           .next ({ s.taken.setBank b { state := .loading, records := [] } with
             load := some { bank := b, declared := count.toNat, expected := 0, accepted := 0 } }.reply h false (.ok []))) ∧
       ∀ l, (s.bank b).state ≠ .active → s.load = some l →
         exec (.loadBegin h bank count) s =
           .next ({ (s.taken.abandonLoad (if l.bank = b then .restarted else .replaced) (-1)).setBank b
               { state := .loading, records := [] } with
             load := some { bank := b, declared := count.toNat, expected := 0, accepted := 0 } }.reply h false (.ok []))) ∧
  (∀ (s : State) (l : LoadCtx) (why : Reason) (record : Int), s.load = some l →
     s.abandonLoad why record =
       ({ s.setBank l.bank { state := .empty, records := [] } with
           load := none, latched := { s.latched with loadAbandoned := true } }.notice
         .loadAbandoned l.bank.val why.code record)) ∧
  (∀ h s, s.tx = .hunting →
     (s.load = none → exec (.loadEnd h) s =
       .next ({ s.taken with protocolError := true }.reply h false (.no .sequence))) ∧
     ∀ l, s.load = some l →
       (l.accepted ≠ l.declared →
         exec (.loadEnd h) s = .next ((s.taken.abandonLoad .count (-1)).reply h false (.no .count))) ∧
       (∀ n r, l.accepted = l.declared → failedCheck (s.bank l.bank).records = some (n, r) →
         exec (.loadEnd h) s = .next ((s.taken.abandonLoad .table r).reply h false
           ⟨.refused, some .badTable, byteOf n :: s16 r⟩)) ∧
       (l.accepted = l.declared → failedCheck (s.bank l.bank).records = none →
         exec (.loadEnd h) s = .next ({ s.taken.setBank l.bank { s.bank l.bank with state := .ready } with
           load := none }.reply h false (.ok [])))) ∧
  (∀ rs : List Stored,
     (failedCheck rs = none ↔ ∀ n, 1 ≤ n → n ≤ 10 → checkPasses rs n) ∧
     ∀ n r, failedCheck rs = some (n, r) ↔ 1 ≤ n ∧ n ≤ 10 ∧ (∀ m, 1 ≤ m → m < n → checkPasses rs m) ∧
       ((r = -1 ∧ checkHolds rs n rs ∧ ¬ checkPasses rs n) ∨
         ∃ k : Fin rs.length,
           checkHolds rs n (rs.take k.val) ∧ ¬ checkHolds rs n (rs.take (k.val + 1)) ∧ r = rs[k].number))

/-- LOAD_RECORD in the order of R8: no bank LOADING; another sequence than the expected; a body that fails the
single-record checks (or a kind that names none, whose offset the spec does not state; log 25); a full bank; and
otherwise the record stored with its number, the two counts up by one. A POINT body is refused with the first offset
whose field is outside its range, and then with the first whose field disagrees with an earlier one; a job record with
the first outside its range; any other body is stored as the fields it holds (R1 to R3, R193). Which byte of a packed
pair or of an envelope the offset names is the model's reading (log 24). -/
def Obligations.LoadRecordInOrder : Prop :=
  (∀ h (number : BitVec 16) (kind : Byte) body s, s.tx = .hunting →
     (∀ n, recordSize kind.toNat = some n → body.length = n) →
     (s.load = none → exec (.loadRecord h number kind body) s =
       .next ({ s.taken with protocolError := true }.reply h false (.no .sequence))) ∧
     ∀ l, s.load = some l →
       (number.toNat ≠ l.expected → exec (.loadRecord h number kind body) s =
         .next (({ s.taken with protocolError := true }.abandonLoad .sequence l.expected).reply h false (.no .sequence))) ∧
       (number.toNat = l.expected → recordSize kind.toNat = none →
         ∃ o n, exec (.loadRecord h number kind body) s =
           .next ({ s.taken with freeCount := n }.reply h false ⟨.refused, some .badField, [o]⟩)) ∧
       (∀ o n, number.toNat = l.expected → recordSize kind.toNat = some n → decodeRecord kind.toNat body = .error o →
         exec (.loadRecord h number kind body) s =
           .next (s.taken.reply h false ⟨.refused, some .badField, [byteOf o]⟩)) ∧
       ∀ r n, number.toNat = l.expected → recordSize kind.toNat = some n → decodeRecord kind.toNat body = .ok r →
         let full := (kind.toNat = 0 ∧ 256 ≤ (pointsIn (s.bank l.bank).records).length) ∨ l.accepted = l.declared
         (full → exec (.loadRecord h number kind body) s = .next (s.taken.reply h false (.no .full))) ∧
         (¬ full → exec (.loadRecord h number kind body) s =
           .next ({ s.taken.setBank l.bank
               { s.bank l.bank with records := (s.bank l.bank).records ++ [(⟨number.toNat, r⟩ : Stored)] } with
             load := some { l with expected := l.expected + 1, accepted := l.accepted + 1 } }.reply h false (.ok [])))) ∧
  ((∀ (body : List Byte) o, decodeRecord 0 body = .error o ↔ firstOffset (pointFieldFails body) o ∨
     ((∀ p < 26, ¬ pointFieldFails body p) ∧ firstOffset (pointFieldDisagrees body) o)) ∧
   (∀ (kind : Nat) (body : List Byte) o, 1 ≤ kind → kind ≤ 5 →
     (decodeRecord kind body = .error o ↔ firstOffset (jobFieldFails kind body) o)) ∧
   ∀ (body : List Byte) (r : Record),
     let pair (o : Nat) : Pair := ⟨get8 body o, get8 body (o + 1) + 1⟩
     let point (o : Nat) : PointId := ⟨get8 body o, get8 body (o + 1), get8 body (o + 2)⟩
     (decodeRecord 0 body = .ok r → ∃ d, r = .point d ∧ pointStored body d) ∧
     (decodeRecord 1 body = .ok r → ∃ z, r = .zone z ∧ z =
       { index := Fin.ofNat 8 (get8 body 0), inUse := decide (128 ≤ get8 body 0), period := get8 body 1
         lampGain := get8 body 2, waterOffset := get16 body 3, setback := get16 body 5, dewLimit := getS16 body 7
         marginTarget := get16 body 9, weight := get16 body 11, credit := get16 body 13, approach := get16 body 15
         occupiedOa := get16 body 17, dehumFan := get16 body 19, fallback := get16 body 21, setMin := packed1 body 23
         setMax := packed2 body 23, heatBand := packed1 body 26, dehumBand := packed2 body 26, hpOn := packed1 body 29
         hpOff := packed2 body 29, dayFan := packed1 body 32, nightFan := packed2 body 32 }) ∧
     (decodeRecord 2 body = .ok r → ∃ c, r = .cover c ∧ c =
       { index := Fin.ofNat 6 (get8 body 0 % 8), inUse := decide (128 ≤ get8 body 0), zone := get8 body 1
         drive := point 2, position := point 5, fan := point 8, travel := get16 body 11, interval := pair 13
         duration := pair 15, validity := pair 17, workLight := get16 body 19, oaFloor := get16 body 21
         fanFloor := get16 body 23 }) ∧
     (decodeRecord 3 body = .ok r → ∃ i, r = .input i ∧ i.index.val = get8 body 0 % 8 ∧
       (i.enabled = true ↔ 128 ≤ get8 body 0) ∧ (i.sense = .activeHigh ↔ get8 body 1 = 0) ∧
       (i.latching = .edge ↔ get8 body 2 = 0) ∧ i.action.code = get8 body 3) ∧
     (decodeRecord 4 body = .ok r → ∃ p, r = .plant p ∧ p.order = [get8 body 0, get8 body 1, get8 body 2, get8 body 3] ∧
       (∀ g < 4, p.pairBits.getLsbD g = (body.getD 4 0).getLsbD g) ∧ p.capacity = get16 body 5) ∧
     (decodeRecord 5 body = .ok r → r = .hall { hold := pair 0, supplyOff := pair 2, watch := pair 4, darkFade := get16 body 6 }))

/-! ### Run states -/

/-- GO: refused RANGE, STATE outside BYPASS, BANK_STATE for a bank that is not READY; otherwise the bank is ACTIVE and
the jobs start: every record UNKNOWN, but marked for resend where a SET of this event is withheld; the strip with every
lamp record 0 and a supply machine OFF for each zone with supply points; every in-use cover HALTED with derive-pending;
the plant loaded and nothing granted; the sources stopped, the mode STAFFED, the trunk-silence timer started. The latches
are those of the enabled EDGE_AND_LEVEL inputs with an active line: each makes its INPUT_LATCHED with second value 1 where
there is room, the INPUT condition is set with the first, and an EVACUATE among them takes the evacuation start: every lamp
at 1000 with fade 0 and every machine ON, with SET 1 to the supply points and SET 1000 to the lamps. Every zone takes its
starting form, its occupied flag is examined, and an in-use one is evaluated at once, its timer started and its outputs
submitted (`startedZone`, `firstOutput`). No other notice and no other SET is made. The link, the palette and the loops are
kept (R97, R98, R111, R144, R145, R156, R157, R163, R178, R180). The priority order takes the groups in the record's group
order, and of group g zone 2g before 2g + 1, or after it where bit g of the pair order, indexed by group number, is set;
it holds every zone once (R117). The record of a cover not in use is the model's (log 7). -/
def Obligations.GoStartsTheJobs : Prop :=
  (∀ h (bank : Byte) s, s.tx = .hunting →
     (2 ≤ bank.toNat → exec (.go h bank) s = .next (s.taken.reply h false (.no .range))) ∧
     ∀ b : Fin 2, bank.toNat = b.val →
       (s.runState ≠ .bypass → exec (.go h bank) s = .next (s.taken.reply h false (.no .state))) ∧
       (s.runState = .bypass → (s.bank b).state ≠ .ready →
         exec (.go h bank) s = .next (s.reply h false (.no .bankState))) ∧
       (s.runState = .bypass → (s.bank b).state = .ready →
         ∃ u : State, exec (.go h bank) s = .next (u.reply h false (.ok [])) ∧
           u.runState = .running ∧
           u.silence = { running := true, prescale := 60, setting := 1, prescaler := 60, count := 1 } ∧
           u.active = some b ∧ (∀ b', u.bank b' = if b' = b then { s.bank b with state := .active } else s.bank b') ∧
           u.mode = some .staffed ∧ u.dormantPending = false ∧ u.watch.running = false ∧
           (∀ src, (u.source src).playing = none ∧ (u.source src).hold.running = false) ∧ u.split = 96 ∧
           u.table.map (·.id) = u.points.map (·.id) ∧
           (∀ id, u.status id =
             { PointStatus.unknown with resend := (u.status id).resend, missed := (u.status id).missed }) ∧
           (∀ id, (u.status id).resend = true → u.nodePresent id = false ∨ u.queueFull id = true) ∧
           (∀ z, u.zone z = u.startedZone z) ∧ (∀ z, (u.zone z).trim = 0 ∧ (u.zone z).override = false) ∧
           u.outdoor = Outdoor.blank ∧
           (∀ c, u.cover c = if (u.coverRec c).isSome = true then
             { Cover.blank with state := .halted, haltReason := some .derived, derivePending := true } else Cover.blank) ∧
           u.capacity = some u.plant.capacity ∧ u.priority = priorityOf u.plant ∧
           (s.mode = none → s.upstream.length < 64 → hasNotice u .modeChanged 6 1 (-1) s.noticeSeq) ∧
           (let rs := (s.bank b).records
            let latch (i : Fin 8) : Option Action :=
              match inputIn rs i with
              | some r => if r.enabled = true ∧ r.latching = .edgeAndLevel ∧ (s.input i).active r = true then
                  some r.action else none
              | none => none
            let evacuated : Prop := ∃ i, latch i = some .evacuate
            (∀ i, (u.input i).latch = latch i) ∧
            u.latched = { s.latched with
              input := u.latched.input, queueOverrun := u.latched.queueOverrun } ∧
            (u.latched.input = true ↔ s.latched.input = true ∨ ∃ i, (latch i).isSome = true) ∧
            (s.upstream.length < 56 → ∀ i a, latch i = some a → ∃ n, hasNotice u .inputLatched i.val a.code 1 n) ∧
            (∀ e ∈ u.upstream, e ∈ s.upstream ∨ ∃ n,
              (s.mode ≠ some .staffed ∧
                e = .notice ⟨.modeChanged, 6, 1, match s.mode with | some m => m.code | none => -1, n⟩) ∨
              ∃ i a, latch i = some a ∧ e = .notice ⟨.inputLatched, i.val, a.code, 1, n⟩) ∧
            (s.banksLawful → ∀ d ∈ pointsIn rs, d.strip ≤ 95 →
              (d.id ∈ u.lamps.map (·.id) ↔ d.role = .actuator .lamp ∧ d.owner = some .lighting)) ∧
            u.lamps.map (·.id) = (stripOf rs).map (·.id) ∧
            (¬ evacuated → (∀ r ∈ u.lamps, r.lamp = { start := 0, target := 0, fade := 0, elapsed := 0, deferred := false }) ∧
              ∀ z, u.supply z = if supplyPointsIn rs z = [] then none else
                some { state := .off, awaiting := [], offDelay := Timer.idle }) ∧
            (evacuated → (∀ r ∈ u.lamps, r.lamp.target = 1000 ∧ r.lamp.expected = 1000 ∧ r.lamp.fade = 0 ∧
                r.lamp.deferred = false) ∧
              (∀ z, u.supply z = if supplyPointsIn rs z = [] then none else
                some { state := .on, awaiting := [], offDelay := Timer.idle }) ∧
              (((pointsIn rs).map (·.id)).Nodup → ∀ d ∈ pointsIn rs,
                (∀ z, d.id ∈ supplyPointsIn rs z → u.submitted .lighting d 1 0) ∧
                (d.id ∈ u.lamps.map (·.id) → u.submitted .lighting d 1000 0))) ∧
            (((pointsIn rs).map (·.id)).Nodup →
              (∀ d ∈ pointsIn rs, ∀ z r k, u.zoneRec z = some r → climateOutput z d → d.role = .actuator k →
                u.submitted .climate d (u.firstOutput z r k) 0) ∧
              ∀ g, ∀ e ∈ (u.segment g).queue, e ∈ (s.segment g).queue ∨ ∃ d, u.point e.point = some d ∧
                ((e.origin = .lighting ∧ evacuated ∧ (d.role = .actuator .lamp ∨ d.role = .actuator .lampSupply)) ∨
                  (e.origin = .climate ∧ ∃ z r k, u.zoneRec z = some r ∧ climateOutput z d ∧ d.role = .actuator k ∧
                    e.value = clampTo d.low d.high (u.firstOutput z r k))))) ∧
           u.trunkAddr = s.trunkAddr ∧ u.trunkCrc = s.trunkCrc ∧ u.protocolError = s.protocolError ∧ u.load = s.load ∧
           u.palette = s.palette ∧ u.loops = s.loops ∧ u.echoes = s.echoes ∧ sameLink s u ∧ keepsNotices s u ∧
           (∀ i, (u.input i).debounced = (s.input i).debounced ∧ (u.input i).level = (s.input i).level ∧
             (u.input i).settling = (s.input i).settling))) ∧
  ((∀ (p : PlantRec) (a b c d : Nat), p.order = [a, b, c, d] →
     let pair (g : Nat) : List (Fin 8) :=
       if p.pairBits.getLsbD g then [Fin.ofNat 8 (2 * g + 1), Fin.ofNat 8 (2 * g)]
       else [Fin.ofNat 8 (2 * g), Fin.ofNat 8 (2 * g + 1)]
     priorityOf p = pair a ++ pair b ++ pair c ++ pair d ∧
     ((∀ g ∈ [0, 1, 2, 3], g ∈ p.order) → (priorityOf p).Perm allZones)) ∧
   priorityOf { order := [1, 0, 2, 3], pairBits := 1, capacity := 0 } = [2, 3, 1, 0, 4, 5, 6, 7])

/-- HALT: refused STATE in BYPASS and BUSY while a cover moves; otherwise the jobs end: nothing of them is left, the
Pending Echo List is empty, the ACTIVE bank is READY and the run state BYPASS. The purge fans of running purges are
submitted SET 0 before, in ascending cover number (log 40) and while the overrides are as they were (log 59), each
placed or withheld and marked, and nothing else is submitted; the Upstream Queue, the latched conditions, the protocol
error, the counts, the palette and the loops are kept (R140, R181). The values at which BYPASS holds the records of
the jobs are the model's choice (log 7). -/
def Obligations.HaltEndsTheJobs : Prop :=
  ∀ h s, s.tx = .hunting →
    (s.runState = .bypass → exec (.halt h) s = .next (s.reply h false (.no .state))) ∧
    (s.runState ≠ .bypass → (∃ c, (s.cover c).moving = true) →
      exec (.halt h) s = .next (s.taken.reply h false (.no .busy))) ∧
    (s.runState ≠ .bypass → (∀ c, (s.cover c).moving = false) →
      ∃ u : State, exec (.halt h) s = .next (u.reply h false (.ok [])) ∧ u.runState = .bypass ∧ u.bypassQuiet ∧
        u.echoes = [] ∧
        (∀ b, u.bank b = if s.active = some b then { s.bank b with state := .ready } else s.bank b) ∧
        let w := forEach allCovers State.haltFan s.taken
        u.segs = w.segs ∧ u.clamps = w.clamps ∧ w = { s.taken with segs := w.segs, clamps := w.clamps, table := w.table } ∧
        sameLink s w ∧ sameStatuses s w ∧
        (∀ c r d, s.coverRec c = some r → (s.cover c).purge = .running → s.point r.fan = some d →
          d.role = .actuator .purgeFan → d.owner = some .cover → (statusIn s.table r.fan).isSome = true →
          hasSet w r.fan (clampTo d.low d.high 0) .cover ∨ (w.status r.fan).resend = true) ∧
        (∀ g, ∀ e ∈ (w.segment g).queue, e ∈ (s.segment g).queue ∨
          ∃ c r, s.coverRec c = some r ∧ (s.cover c).purge = .running ∧ e.point = r.fan ∧ e.origin = .cover) ∧
        ((∀ c, (s.cover c).purging = false) → u.segs = s.segs ∧ u.clamps = s.clamps) ∧
        u.upstream = s.upstream ∧ u.noticeSeq = s.noticeSeq ∧ u.overrun = s.overrun ∧ u.latched = s.latched ∧
        u.protocolError = s.protocolError ∧ u.trunkCrc = s.trunkCrc ∧ u.trunkAddr = s.trunkAddr ∧ u.load = s.load ∧
        u.palette = s.palette ∧ u.loops = s.loops ∧
        (∀ i, (u.input i).debounced = (s.input i).debounced ∧ (u.input i).level = (s.input i).level))

/-- CLEAR first empties: the queues and the Pending Echo List, the counts, the latched conditions and the protocol error,
with every PRESENT node newly joined and all the rest kept (`emptied`, R189). In BYPASS that is all. In every run state
nothing of what it empties reaches the next state: CLEAR answers the same as from the emptied state.

Outside BYPASS the jobs then restart. The Upstream Queue holds MODE_CHANGED with subject 7, where the mode was not STAFFED,
and an INPUT_LATCHED with second value 1 for each enabled EDGE_AND_LEVEL input with an active line, numbered on from the
notice sequence; no condition is latched but INPUT for those; the counts are 0. Every record is UNKNOWN, but marked for
resend where a SET made since is withheld. Every zone takes its starting form, its occupied flag is examined, and an in-use
one is evaluated at once, its timer started afresh and its outputs submitted (`startedZone`, `firstOutput`). Every in-use
cover is derived from its position as it stood; the drive of each that moved and the fan of each whose purge ran have SET 0,
the queues having room for eight and the node being PRESENT. The mode is STAFFED, the sources are stopped, the latches are
those re-established, the capacity is the PLANT record's and nothing is granted. No lamp is retargeted: the lamp records,
the supply states and the off delays are kept, and each awaited supply point is submitted SET 1 again and stays awaited
where it is placed; a supply whose points are all withheld is released, with its deferred lamps sent their targets. An
EVACUATE newly in force takes the evacuation start (R178). The send queues hold the SETs named and
no others. Banks, load, palette and loops are kept (R97, R98, R111, R139, R140, R157, R158, R165, R168, R178, R189, R190).
The ascending order of the inputs (log 39) and the record of a cover not in use (log 7) are the model's. -/
def Obligations.ClearEmptiesTheLinkAndRestartsTheJobs : Prop :=
  (∀ h s, s.tx = .hunting → s.runState = .bypass →
     ∃ u : State, exec (.clear h) s = .next (u.reply h false (.ok [])) ∧ emptied s u) ∧
  (∀ h s e, s.tx = .hunting → emptied s e → exec (.clear h) s = exec (.clear h) e) ∧
  (∀ h s, s.tx = .hunting → s.runState ≠ .bypass →
     ∃ u : State, exec (.clear h) s = .next (u.reply h false (.ok [])) ∧
       (let changed : List UpEntry := if s.mode = some .staffed then [] else
          [.notice ⟨.modeChanged, 7, 1, match s.mode with | some m => m.code | none => -1, s.noticeSeq⟩]
        let held := ([0, 1, 2, 3, 4, 5, 6, 7] : List (Fin 8)).filter fun i => s.levelHeld i
        let code (i : Fin 8) : Int :=
          match s.inputRec i with
          | some r => r.action.code
          | none => 0
        u.upstream = changed ++ held.zipIdx.map (fun p => .notice
          ⟨.inputLatched, p.1.val, code p.1, 1, s.noticeSeq + BitVec.ofNat 8 (changed.length + p.2)⟩) ∧
        u.noticeSeq = s.noticeSeq + BitVec.ofNat 8 u.upstream.length ∧
        u.latched = { Latched.none with input := decide (held ≠ []) }) ∧
       u.overrun = 0 ∧ u.echoes = [] ∧ u.trunkCrc = 0 ∧ u.protocolError = false ∧
       (∀ g, u.segment g = { s.segment g with
           queue := (u.segment g).queue, crcCount := 0, missCount := 0, nodes := (u.segment g).nodes } ∧
         ∀ n : Fin 31, (u.segment g).nodes[n] =
           if (s.segment g).nodes[n].state = .present then { (s.segment g).nodes[n] with joined := true }
           else (s.segment g).nodes[n]) ∧
       u.table.map (·.id) = s.table.map (·.id) ∧
       (∀ id, u.status id = { PointStatus.unknown with resend := (u.status id).resend }) ∧
       (∀ id, (u.status id).resend = true → u.nodePresent id = false ∨ u.queueFull id = true) ∧
       (∀ z, u.zone z = u.startedZone z) ∧ (∀ z, (u.zone z).trim = 0 ∧ (u.zone z).override = false) ∧
       u.outdoor = Outdoor.blank ∧
       (∀ c r, s.coverRec c = some r → u.cover c = (s.cover c).derived r (s.positionOf r)) ∧
       (∀ c, s.coverRec c = none → u.cover c = Cover.blank) ∧
       u.mode = some .staffed ∧ u.dormantPending = false ∧ u.watch = s.watch.stop ∧
       (∀ src, u.source src = { playing := none, hold := (s.source src).hold.stop }) ∧ u.split = 96 ∧
       (∀ i, u.input i = { s.input i with
         latch := if s.levelHeld i then (s.inputRec i).map (·.action) else none }) ∧
       u.capacity = some s.plant.capacity ∧ u.priority = s.priority ∧ u.banks = s.banks ∧ u.load = s.load ∧
       u.active = s.active ∧ u.palette = s.palette ∧ u.loops = s.loops ∧ u.trunkAddr = s.trunkAddr ∧
       u.runState = .running ∧ u.silence = s.taken.silence ∧ u.freeCount = s.freeCount ∧ u.pending = s.pending ∧
       u.lamps.map (·.id) = s.lamps.map (·.id) ∧
       (let evacuating : Prop := ∃ i, (s.input i).latch = some .evacuate
        let evacuated : Prop := ¬ evacuating ∧ ∃ i r, s.levelHeld i = true ∧ s.inputRec i = some r ∧ r.action = .evacuate
        let stops := (allCovers.filter fun c => (s.cover c).moving).length +
          (allCovers.filter fun c => (s.cover c).purging).length
        let placed (id : PointId) : Prop :=
          (s.point id).isSome = true ∧ s.nodePresent id = true ∧ u.queueFull id = false
        (s.points.map (·.id)).Nodup →
          (∀ c r d, s.coverRec c = some r → stops ≤ 8 →
            (∀ z m, s.supply z = some m → ∀ id ∈ m.awaiting, id ≠ r.drive ∧ id ≠ r.fan) →
            ((s.cover c).moving = true → s.point r.drive = some d → d.role = .actuator .coverDrive →
              s.lamp r.drive = none → s.nodePresent r.drive = true →
              hasSet u r.drive (clampTo d.low d.high 0) .cover) ∧
            ((s.cover c).purging = true → s.point r.fan = some d → d.role = .actuator .purgeFan →
              s.lamp r.fan = none → s.nodePresent r.fan = true → hasSet u r.fan (clampTo d.low d.high 0) .cover)) ∧
          (∀ z m, s.supply z = some m → m.state = .powering → ∀ id ∈ m.awaiting, id ∈ s.supplyPoints z →
            (∀ y n, y ≠ z → s.supply y = some n → id ∉ n.awaiting) → s.lamp id = none →
            ∀ d, s.point id = some d → (statusIn s.table id).isSome = true → u.submitted .lighting d 1 0) ∧
          (¬ evacuated → (s.lamps.map (·.id)).Nodup →
            (∀ z, s.supply z = none → u.supply z = none) ∧
            (∀ z m, s.supply z = some m →
              (m.state ≠ .powering ∨ m.awaiting = [] → u.supply z = some m) ∧
              (m.state = .powering → (∃ id ∈ m.awaiting, placed id) →
                ∃ l, u.supply z = some { m with awaiting := l } ∧ ∀ id, id ∈ l ↔ id ∈ m.awaiting ∧ placed id) ∧
              (m.state = .powering → m.awaiting ≠ [] → (∀ id ∈ m.awaiting, ¬ placed id) → m.offDelay.running = false →
                (s.demand z = true ∨ evacuating → u.supply z = some { m with state := .on, awaiting := [] }) ∧
                (s.demand z = false → ¬ evacuating → u.supply z = some { m with
                  state := .stopping, awaiting := [], offDelay := m.offDelay.start s.hall.supplyOff }))) ∧
            ∀ id d l, s.point id = some d → s.lamp id = some l →
              let released : Prop := ∃ z, d.zone = some z ∧ s.supplyState z = some .powering ∧
                u.supplyState z ≠ some .powering
              (l.deferred = false ∨ ¬ released → u.lamp id = some l) ∧
              (l.deferred = true → released → u.lamp id = some { l with deferred := false, elapsed := 0 } ∧
                (d.role = .actuator .lamp → (statusIn s.table id).isSome = true →
                  u.submitted .lighting d l.target l.fade))) ∧
          (evacuated → (∀ id d, s.point id = some d → ∀ l, s.lamp id = some l →
              ∃ l', u.lamp id = some l' ∧ l'.target = 1000 ∧ l'.deferred = false) ∧
            ∀ z, (s.supply z).isSome = true → u.supplyState z = some .on) ∧
          (∀ d ∈ s.points, ∀ z r k, s.zoneRec z = some r → climateOutput z d → d.role = .actuator k →
            (statusIn s.table d.id).isSome = true → u.submitted .climate d (u.firstOutput z r k) 0) ∧
          ((s.lamps.map (·.id)).Nodup → ∀ g, ∀ e ∈ (u.segment g).queue, e.trunkSeq = 0 ∧ ∃ d, s.point e.point = some d ∧
            ((e.origin = .cover ∧ (d.isActuator = true → e.value = clampTo d.low d.high 0) ∧
                ∃ c r, s.coverRec c = some r ∧ ((e.point = r.drive ∧ (s.cover c).moving = true) ∨
                  (e.point = r.fan ∧ (s.cover c).purging = true) ∨
                  ((e.point = r.drive ∨ e.point = r.fan) ∧ (s.status e.point).resend = true))) ∨
              (e.origin = .lighting ∧ (evacuated ∨ ∃ z m, s.supply z = some m ∧ (e.point ∈ m.awaiting ∨
                (d.zone = some z ∧ m.state = .powering ∧ ∃ l, s.lamp e.point = some l ∧ l.deferred = true)))) ∨
              (e.origin = .climate ∧ ∃ z r k, s.zoneRec z = some r ∧ climateOutput z d ∧ d.role = .actuator k ∧
                e.value = clampTo d.low d.high (u.firstOutput z r k))))))

/-- BANK_SWITCH: the refusals in the order of R11; otherwise the bank is ACTIVE and the former one READY with its
records, BANK_SWITCHED is queued where there is room, a matched point keeps its record with its counter 0 (STALE when
its age is over its new limit) and another starts UNKNOWN, pending entries are pruned, a kept input keeps its latch
and another is re-established, the plant is taken from the new record. Before the deliveries to the Mode Controller: a
zone in use in both banks keeps its values, its timer restarted on a new period; one leaving use has its request 0,
its flags clear and its timers stopped; one entering use is evaluated from its starting form, its timer started, but
not in DORMANT; a kept cover keeps its record, another in use is derived from its position, and one not in use is
blank; every zone's purge floors are formed afresh; every lamp of the new strip has its governing level. A purge that
ends submits SET 0 to its old fan, and a supply machine is kept where its zone's points are the same and is otherwise
none, OFF, or ON with SET 1 under an EVACUATE latch. Trims, overrides, sources, palette, loops, presence and the run
state are kept (R11 to R15, R135, R165). That a pending entry of a point defined only in the new bank stays, that only
a running evaluation timer is restarted, and the blank record of a cover are the model's (logs 7, 30, 31, 50). -/
def Obligations.BankSwitchCarriesOver : Prop :=
  (∀ h (bank : Byte) s, s.tx = .hunting →
     (2 ≤ bank.toNat → exec (.bankSwitch h bank) s = .next (s.taken.reply h false (.no .range))) ∧
     ∀ b : Fin 2, bank.toNat = b.val →
       (s.active = none ∨ s.runState = .bypass →
         exec (.bankSwitch h bank) s = .next (s.taken.reply h false (.no .notRunning))) ∧
       ∀ former, s.active = some former → s.runState ≠ .bypass →
         ((s.bank b).state ≠ .ready → exec (.bankSwitch h bank) s = .next (s.taken.reply h false (.no .bankState))) ∧
         ((s.bank b).state = .ready → (∃ c, (s.cover c).moving = true) →
           exec (.bankSwitch h bank) s = .next (s.taken.reply h false (.no .busy))) ∧
         ((s.bank b).state = .ready → (∀ c, (s.cover c).moving = false) → b ≠ former →
           let old := (s.bank former).records
           let new := (s.bank b).records
           ∃ u : State, exec (.bankSwitch h bank) s = .next (u.reply h false (.ok [])) ∧
             u.active = some b ∧ u.bank b = { s.bank b with state := .active } ∧
             u.bank former = { s.bank former with state := .ready } ∧ u.runState = .running ∧
             u.silence = s.taken.silence ∧
             (s.upstream.length < 64 → hasNotice u .bankSwitched b.val former.val 0 s.noticeSeq) ∧
             u.table.map (·.id) = (pointsIn new).map (·.id) ∧
             (∀ d ∈ pointsIn new, pointIn new d.id = some d →
               ∃ st, u.status d.id = { st with resend := (u.status d.id).resend, missed := (u.status d.id).missed } ∧
                 st = if matchedPoint old d then
                     { s.status d.id with
                       counter := 0
                       quality := if (s.status d.id).quality = .good ∧ d.stale < (s.status d.id).age then .stale
                         else (s.status d.id).quality }
                   else PointStatus.unknown) ∧
             u.echoes = s.echoes.filter (keptPending old new) ∧
             (∀ i, (u.input i).debounced = (s.input i).debounced ∧
               (u.input i).latch =
                 if (s.input i).latch.isSome = true ∧ keptInput old new i = true then (s.input i).latch
                 else match inputIn new i with
                   | some r => if r.enabled = true ∧ r.latching = .edgeAndLevel ∧ (s.input i).active r = true then
                       some r.action else none
                   | none => none) ∧
             u.capacity = some u.plant.capacity ∧ u.priority = priorityOf u.plant ∧
             sameTrims s u ∧ sameSources s u ∧ sameLink s u ∧ keepsNotices s u ∧ u.palette = s.palette ∧
             u.loops = s.loops ∧ u.load = s.load ∧ u.protocolError = s.protocolError ∧ u.trunkCrc = s.trunkCrc ∧
             u.trunkAddr = s.trunkAddr ∧
             ∃ w : State, u = settle s.taken w ∧ w.mode = s.mode ∧ w.active = some b ∧
               (∀ z p q, zoneIn old z = some p → zoneIn new z = some q → w.zone z = { s.zone z with
                 evalTimer := if p.period ≠ q.period ∧ (s.zone z).evalTimer.running = true then
                     (s.zone z).evalTimer.start ⟨1, q.period⟩ else (s.zone z).evalTimer
                 occupied := (w.zone z).occupied, grant := (w.zone z).grant, oaFloor := (w.zone z).oaFloor
                 fanFloor := (w.zone z).fanFloor }) ∧
               (∀ z, (zoneIn old z).isSome = true → zoneIn new z = none → w.zone z = { s.zone z with
                   request := 0, occupied := false, risk := false, evalTimer := (s.zone z).evalTimer.stop
                   holdTimer := (s.zone z).holdTimer.stop, grant := (w.zone z).grant, oaFloor := 0, fanFloor := 0 } ∧
                 ((s.zone z).risk = true → s.upstream.length < 56 →
                   ∃ n, hasNotice w .condensationClear z.val (s.zone z).margin (s.zone z).dew n)) ∧
               (∀ z q, zoneIn old z = none → zoneIn new z = some q →
                 (w.zone z).evalTimer =
                   (if s.mode = some .dormant then Timer.idle else Timer.idle.start ⟨1, q.period⟩) ∧
                 (w.zone z).holdTimer = Timer.idle ∧ (w.zone z).plantShort = false ∧ (w.zone z).starved = 0 ∧
                 (w.zone z).unstarved = (if s.mode = some .dormant then 0 else 1) ∧
                 ((w.zone z).occupied = true ↔ ∃ d ∈ pointsIn new, d.role = .sensor .occupancy ∧ d.zone = some z ∧
                   (w.status d.id).quality ≠ .good)) ∧
               (∀ z, zoneIn old z = none → zoneIn new z = none →
                 w.zone z = { s.zone z with grant := (w.zone z).grant, oaFloor := 0, fanFloor := 0 }) ∧
               (∀ c p q, coverIn old c = some p → coverIn new c = some q → p.drive = q.drive → w.cover c = s.cover c) ∧
               (∀ c q, coverIn new c = some q → (∀ p, coverIn old c = some p → p.drive ≠ q.drive) →
                 w.cover c = (s.cover c).derived q (w.status q.position)) ∧
               (∀ c, coverIn new c = none →
                 w.cover c = if (coverIn old c).isSome = true then Cover.blank else s.cover c) ∧
               (∀ z, w.floorsFormed z) ∧ w.lamps.map (·.id) = (stripOf new).map (·.id) ∧
               (∀ id d l, w.point id = some d → w.lamp id = some l → l.target = (w.governing d).1) ∧
               ∀ z, (∃ id, ¬ (id ∈ supplyPointsIn old z ↔ id ∈ supplyPointsIn new z)) →
                 ((w.supply z).isSome = true ↔ supplyPointsIn new z ≠ []))) ∧
  ((∀ (old : List Stored) (c : Fin 6) (s : State) p d, coverIn old c = some p → s.point p.fan = some d →
      d.owner = some .cover → d.role = .actuator .purgeFan → (statusIn s.table p.fan).isSome = true →
      (s.cover c).purging = true → (∀ q, s.coverRec c = some q → p.drive = q.drive → p.fan ≠ q.fan) →
      let t := State.switchCover old c s
      hasSet t p.fan (clampTo d.low d.high 0) .cover ∨ (t.status p.fan).resend = true) ∧
   (∀ (old : List Stored) (c : Fin 6) (s : State) p q d, coverIn old c = some p → s.coverRec c = some q →
      p.drive = q.drive → p.fan ≠ q.fan → s.point q.fan = some d → d.owner = some .cover →
      d.role = .actuator .purgeFan → (statusIn s.table q.fan).isSome = true → (s.cover c).purging = true →
      let t := State.switchCover old c s
      hasSet t q.fan (clampTo d.low d.high 1) .cover ∨ (t.status q.fan).resend = true) ∧
   ∀ (old : List Stored) (z : Fin 8) (s : State),
     let points := s.supplyPoints z
     let same : Prop := ∀ id, id ∈ supplyPointsIn old z ↔ id ∈ points
     let t := State.rebuildSupply old z s
     (same → t = s) ∧ (¬ same → points = [] → t = s.setSupply z none) ∧
     (¬ same → points ≠ [] → (∀ i, (s.input i).latch ≠ some .evacuate) →
       t = s.setSupply z (some { state := .off, awaiting := [], offDelay := Timer.idle })) ∧
     (¬ same → points ≠ [] → (∃ i, (s.input i).latch = some .evacuate) →
       t.supply z = some { state := .on, awaiting := [], offDelay := Timer.idle } ∧
       ∀ id ∈ points, ∀ d, s.point id = some d → d.role = .actuator .lampSupply →
         (statusIn s.table id).isSome = true →
         hasSet t id (clampTo d.low d.high 1) .lighting ∨ (t.status id).resend = true))

/-- The trunk-silence timer's last tick in RUNNING enters AUTONOMOUS: any load is abandoned, and then every override that
is on goes off, in ascending zone number, each with the resync of its zone's job-owned points that allow override, in
ascending point index; the mode, the sources, the covers and the latches are kept. In another run state the expiry does
nothing, and a timer that is not due does not expire (R70, R182; log 3). A resync submits the point's current output, or
leaves it marked for resend where its job has none: a climate output last sent, or 0 in DORMANT; a cover's drive or fan
by the cover's state, but not the open command of an OPENING cover whose VALID is clear; a supply point by the state of
its supply; and a lamp its target with the fade time left, but not while it is deferred or, for a target other than 0,
while its supply is POWERING (R61, R110, R136, R137, R160). -/
def Obligations.TrunkSilenceEntersAutonomous : Prop :=
  (∀ s, s.timerDue .trunkSilence = false → exec .trunkSilenceExpiry s = .next s) ∧
  (∀ s, s.timerDue .trunkSilence = true → s.runState ≠ .running →
    exec .trunkSilenceExpiry s = .next { s with silence := { s.silence with running := false, prescaler := 0, count := 0 } }) ∧
  (∀ s, s.timerDue .trunkSilence = true → s.runState = .running →
    ∃ t : State, exec .trunkSilenceExpiry s = .next t ∧ t.runState = .autonomous ∧ t.silence.running = false ∧
      t.load = none ∧ (∀ z, (t.zone z).override = false ∧ (t.zone z).trim = (s.zone z).trim) ∧
      (∀ l, s.load = some l →
        (∀ b, t.bank b = if b = l.bank then { state := .empty, records := [] } else s.bank b) ∧
        t.latched.loadAbandoned = true ∧
        (s.upstream.length < 64 →
          hasNotice t .loadAbandoned l.bank.val Reason.autonomous.code (-1) s.noticeSeq)) ∧
      (s.load = none → t.banks = s.banks ∧ t.latched.loadAbandoned = s.latched.loadAbandoned) ∧
      (let x : State := { s with
          runState := .autonomous, silence := { s.silence with running := false, prescaler := 0, count := 0 }
          }.abandonLoad .autonomous (-1)
       ∃ points : Fin 8 → List PointDef,
         (∀ z, (points z).Pairwise (fun a b => pointIndex a.id ≤ pointIndex b.id) ∧
           (points z).Perm (x.points.filter fun d =>
             d.override = true ∧ d.zone = some z ∧ d.owner.isSome = true ∧ d.owner ≠ some .station)) ∧
         t = forEach (allZones.filter fun z => (s.zone z).override)
           (fun z u => forEach (points z) (fun d => State.resync d.id) (u.setZone z { u.zone z with override := false })) x) ∧
      t.active = s.active ∧ t.palette = s.palette ∧ t.loops = s.loops ∧ t.tx = s.tx ∧ t.covers = s.covers ∧
      t.inputs = s.inputs ∧ t.echoes = s.echoes ∧ sameSources s t ∧ samePlant s t ∧ sameLink s t ∧ sameMode s t ∧
      sameStatuses s t ∧ keepsNotices s t) ∧
  ∀ (s : State) d, s.point d.id = some d → (statusIn s.table d.id).isSome = true →
    let t := s.resync d.id
    (d.owner = none ∨ d.owner = some .station → t = s.modStatus d.id fun st => { st with resend := true }) ∧
    (∀ k z, d.owner = some .climate → d.role = .actuator k → d.zone = some z →
      (s.mode = some .dormant → t.submitted .climate d 0 0) ∧
      (s.mode ≠ some .dormant →
        (∀ v, (s.zone z).lastSent k = some v → t.submitted .climate d v 0) ∧
        ((s.zone z).lastSent k = none → t = s.modStatus d.id fun st => { st with resend := true }))) ∧
    (∀ c r, d.owner = some .cover → s.coverAtOutput d.id = some (c, r) →
      let v := s.cover c
      (d.id = r.drive → d.role = .actuator .coverDrive →
        (v.state = .closing → t.submitted .cover d 1 0) ∧
        (v.state = .opening → v.valid = true → t.submitted .cover d 2 0) ∧
        (v.state = .opening → v.valid = false → t = s.modStatus d.id fun st => { st with resend := true }) ∧
        (v.moving = false → t.submitted .cover d 0 0)) ∧
      (d.id = r.fan → d.id ≠ r.drive → d.role = .actuator .purgeFan →
        t.submitted .cover d (if v.purge = .running then 1 else 0) 0)) ∧
    (∀ z m, d.owner = some .lighting → d.role = .actuator .lampSupply → d.zone = some z → s.supply z = some m →
      s.lamp d.id = none → t.submitted .lighting d (if m.state = .off then 0 else 1) 0) ∧
    ∀ z l, d.owner = some .lighting → d.role = .actuator .lamp → d.zone = some z → s.lamp d.id = some l →
      (l.deferred = true ∨ (s.supplyState z = some .powering ∧ l.target ≠ 0) →
        t = s.modStatus d.id fun st => { st with resend := true }) ∧
      (l.deferred = false → s.supplyState z ≠ some .powering ∨ l.target = 0 →
        t.submitted .lighting d l.target (l.fade - l.elapsed))

/-! ### SETs -/

/-- A station SET for a field point: an identity out of range (log 11), a point a job owns, an absent node and a full
queue answer without placing it; any other joins its segment's queue, clamped to the envelope and with its fade
capped, as the station's, and marks the point of a job's entry it replaces. The station may take a point that is not
defined, is a sensor, is its own, or is overridden in its zone; no override is in force for a lamp or its supply while
an EVACUATE latch is set. A job's SET is withheld for an override in force, an absent node or a full queue, and then
marks its point for resend; otherwise it joins the queue clamped, with the job as origin, and clears the mark. A REPLY
HELD OWNED carries the last commanded value, its origin and the last echoed value, where the record has no origin or no
echo a 0 for the value and 0xFF for the origin (R25, R56 to R60, R70, R191). -/
def Obligations.SetsArePlacedOrHeldOrWithheld : Prop :=
  (∀ h (value : Int) (fade : Nat) s, s.tx = .hunting →
     let t := s.taken
     let id : PointId := ⟨h.seg.toNat, h.node.toNat, h.chan.toNat⟩
     ((3 < h.seg.toNat ∧ h.seg.toNat ≠ 7) ∨ 30 < h.node.toNat ∨ 15 < h.chan.toNat →
       exec (.stationSet h value fade) s = .next (t.reply h false (.no .range))) ∧
     (h.seg.toNat ≤ 3 → h.node.toNat ≤ 30 → h.chan.toNat ≤ 15 →
       (t.forwardable id = false →
         exec (.stationSet h value fade) s =
           .next (t.reply h false ⟨.held, some .owned, heldBody (s.status id)⟩)) ∧
       (t.forwardable id = true → s.nodePresent id = false →
         exec (.stationSet h value fade) s = .next (t.reply h false ⟨.held, some .absent, []⟩)) ∧
       (t.forwardable id = true → s.nodePresent id = true → s.queueFull id = true →
         exec (.stationSet h value fade) s = .next (t.reply h false ⟨.held, some .queueFull, []⟩)) ∧
       (t.forwardable id = true → s.nodePresent id = true → s.queueFull id = false →
         let v := match s.point id with
           | some d => if d.isActuator then clampTo d.low d.high value else value
           | none => value
         let e : SendEntry := { point := id, value := v, fade := min fade 600, origin := .station, trunkSeq := h.seq }
         let u := { t.setSegment (pointSeg id)
             { s.segment (pointSeg id) with queue := enqueue e (s.segment (pointSeg id)).queue } with
           clamps := if v = value then s.clamps else min (s.clamps + 1) 65535 }
         exec (.stationSet h value fade) s =
           .next ((if jobQueued (s.segment (pointSeg id)).queue id then
               u.modStatus id fun st => { st with resend := true } else u).reply h false
             ⟨if v = value then .forwarded else .forwardedClamped, none, s32 v⟩)))) ∧
  (∀ (s : State) id,
     (s.point id = none → s.forwardable id = true) ∧
     ∀ d, s.point id = some d →
       (d.isSensor = true → s.forwardable id = true) ∧
       (d.isSensor = false → d.owner = some .station → s.forwardable id = true) ∧
       (d.isSensor = false → d.owner ≠ some .station → (s.forwardable id = true ↔
         ∃ z, d.zone = some z ∧ d.override = true ∧ (s.zone z).override = true ∧
           ¬ ((∃ i, (s.input i).latch = some .evacuate) ∧ (d.role = .actuator .lamp ∨ d.role = .actuator .lampSupply))))) ∧
  (∀ (s : State) (o : Owner) id (value : Int) (fade : Nat) d, s.point id = some d →
     (s.overrideInForce d = true ∨ s.nodePresent id = false ∨ s.queueFull id = true →
       s.submit o id value fade = s.modStatus id fun st => { st with resend := true }) ∧
     (s.overrideInForce d = false → s.nodePresent id = true → s.queueFull id = false →
       ∃ t, s.submit o id value fade = t ∧
         (t.segment (pointSeg id)).queue =
           enqueue ⟨id, if d.isActuator then clampTo d.low d.high value else value, min fade 600, o, 0⟩
             (s.segment (pointSeg id)).queue ∧
         (∀ g, g ≠ pointSeg id → t.segment g = s.segment g) ∧
         (∀ j, t.status j = if j = id then { s.status j with resend := false } else s.status j))) ∧
  ∀ r : PointStatus,
    let origin : Byte :=
      match r.origin with
      | some .station => 0
      | some .climate => 1
      | some .cover => 2
      | some .lighting => 3
      | none => 0xFF
    (∀ v, r.commanded = some v → r.origin ≠ none →
      heldBody r = s32 v ++ [origin] ++ s32 (if r.status.isSome = true then r.value else 0)) ∧
    (r.origin = none → heldBody r = s32 0 ++ [origin] ++ s32 (if r.status.isSome = true then r.value else 0))

/-- A SET for segment 7 is the function its node and channel name in Table 4-2, and is refused UNKNOWN where they name
none; in BYPASS every one is refused NOT_RUNNING; an enumerated value that names no value, a COVER_COMMAND's too, is
refused RANGE; a refusal changes nothing but through the frame itself. The bodies of these REPLYs are empty (log 26)
(R71, R72). -/
def Obligations.VirtualSetsAreTheFunctionsNamed : Prop :=
  ((∀ (seq : Byte) v fade s,
     exec (.stationSet (virtualHdr 0 0 seq) v fade) s = exec (.modeRequest seq v) s ∧
     exec (.stationSet (virtualHdr 0 1 seq) v fade) s = exec (.plantCapacity seq v) s ∧
     exec (.stationSet (virtualHdr 0 2 seq) v fade) s = exec (.splitPosition seq v) s ∧
     exec (.stationSet (virtualHdr 0 3 seq) v fade) s = exec (.cueSelect .a seq v) s ∧
     exec (.stationSet (virtualHdr 0 4 seq) v fade) s = exec (.cueSelect .b seq v) s ∧
     exec (.stationSet (virtualHdr 0 5 seq) v fade) s = exec (.cueAdvance .a seq v) s ∧
     exec (.stationSet (virtualHdr 0 6 seq) v fade) s = exec (.cueAdvance .b seq v) s ∧
     (∀ c : Fin 6,
       exec (.stationSet (virtualHdr 1 c.val seq) 0 fade) s = exec (.coverStop c seq) s ∧
       exec (.stationSet (virtualHdr 1 c.val seq) 1 fade) s = exec (.coverClose c seq) s ∧
       exec (.stationSet (virtualHdr 1 c.val seq) 2 fade) s = exec (.coverOpen c seq) s ∧
       exec (.stationSet (virtualHdr 1 c.val seq) 3 fade) s = exec (.resetFault c seq) s) ∧
     ∀ z : Fin 8,
       exec (.stationSet (virtualHdr 2 z.val seq) v fade) s = exec (.zoneOverride z seq v) s ∧
       exec (.stationSet (virtualHdr 3 z.val seq) v fade) s = exec (.zoneTrim z seq v) s) ∧
   (∀ h v fade s, s.tx = .hunting → h.seg = 7 → h.node.toNat ≤ 30 → h.chan.toNat ≤ 15 → s.runState = .bypass →
     exec (.stationSet h v fade) s = .next (s.reply h false (.no .notRunning))) ∧
   ∀ h v fade s, s.tx = .hunting → h.seg = 7 → h.node.toNat ≤ 30 → h.chan.toNat ≤ 15 → s.runState ≠ .bypass →
     (h.node.toNat = 0 ∧ 6 < h.chan.toNat) ∨ (h.node.toNat = 1 ∧ 5 < h.chan.toNat) ∨
       ((h.node.toNat = 2 ∨ h.node.toNat = 3) ∧ 7 < h.chan.toNat) ∨ 3 < h.node.toNat →
     exec (.stationSet h v fade) s = .next (s.taken.reply h false (.no .unknown))) ∧
  (∀ (seq : Byte) (v : Int) s, s.tx = .hunting →
     (s.runState = .bypass →
       exec (.modeRequest seq v) s = .next (s.reply (virtualHdr 0 0 seq) false (.no .notRunning)) ∧
       exec (.plantCapacity seq v) s = .next (s.reply (virtualHdr 0 1 seq) false (.no .notRunning)) ∧
       exec (.splitPosition seq v) s = .next (s.reply (virtualHdr 0 2 seq) false (.no .notRunning)) ∧
       (∀ src, exec (.cueSelect src seq v) s = .next (s.reply (virtualHdr 0 (cueChannel 3 src) seq) false (.no .notRunning)) ∧
         exec (.cueAdvance src seq v) s = .next (s.reply (virtualHdr 0 (cueChannel 5 src) seq) false (.no .notRunning))) ∧
       (∀ c : Fin 6, ∀ i ∈ [Instr.coverClose c seq, .coverOpen c seq, .coverStop c seq, .resetFault c seq],
         exec i s = .next (s.reply (virtualHdr 1 c.val seq) false (.no .notRunning))) ∧
       ∀ z : Fin 8, exec (.zoneOverride z seq v) s = .next (s.reply (virtualHdr 2 z.val seq) false (.no .notRunning)) ∧
         exec (.zoneTrim z seq v) s = .next (s.reply (virtualHdr 3 z.val seq) false (.no .notRunning))) ∧
     (s.runState ≠ .bypass →
       ((v < 0 ∨ 3 < v) →
         exec (.modeRequest seq v) s = .next (s.taken.reply (virtualHdr 0 0 seq) false (.no .range))) ∧
       (∀ (c : Fin 6) fade, (v < 0 ∨ 3 < v) → exec (.stationSet (virtualHdr 1 c.val seq) v fade) s =
         .next (s.taken.reply (virtualHdr 1 c.val seq) false (.no .range))) ∧
       (∀ src, (v < 0 ∨ 3 < v) → v ≠ 255 → exec (.cueSelect src seq v) s =
         .next (s.taken.reply (virtualHdr 0 (cueChannel 3 src) seq) false (.no .range))) ∧
       (∀ src, (v < 1 ∨ (63 < v ∧ v < 101) ∨ 108 < v) → exec (.cueAdvance src seq v) s =
         .next (s.taken.reply (virtualHdr 0 (cueChannel 5 src) seq) false (.no .range))) ∧
       ∀ z : Fin 8, (v < 0 ∨ 1 < v) →
         exec (.zoneOverride z seq v) s = .next (s.taken.reply (virtualHdr 2 z.val seq) false (.no .range))))

/-- MODE_REQUEST for OPEN, STAFFED and NIGHT: OPEN is refused COVERS while an in-use cover is not OPEN or an open is
pending; otherwise the mode becomes the one named, dormant-pending is cleared, a change is noticed, and a change that
does not leave DORMANT touches nothing else (R167, R168). The exit from DORMANT stops the watch, evaluates every
in-use zone at once in ascending number with its evaluation timer started afresh, and then gives every lamp of the
strip its governing level (R115, R164; that order of the two is log 17). -/
def Obligations.ModeRequestSetsTheMode : Prop :=
  ∀ (seq : Byte) s, s.tx = .hunting → s.runState ≠ .bypass →
    ((∃ c, ((s.coverRec c).isSome = true ∧ (s.cover c).state ≠ .opened) ∨ (s.cover c).openPending = true) →
      exec (.modeRequest seq 0) s =
        .next (s.taken.reply (virtualHdr 0 0 seq) false ⟨.refused, some .covers, s32 0 ++ s.modeBody⟩)) ∧
    ∀ m, m ≠ .dormant →
      (m = .openHall → ∀ c, ((s.coverRec c).isSome = true → (s.cover c).state = .opened) ∧
        (s.cover c).openPending = false) →
      ∃ u : State, exec (.modeRequest seq m.code) s =
          .next (u.reply (virtualHdr 0 0 seq) false ⟨.accepted, none, s32 m.code ++ [byteOf m.code, 0]⟩) ∧
        u.mode = some m ∧ u.dormantPending = false ∧
        (s.mode = some m → u = { s.taken with dormantPending := false }) ∧
        (s.mode ≠ some m → s.upstream.length < 64 →
          hasNotice u .modeChanged 0 m.code (match s.mode with | some k => k.code | none => -1) s.noticeSeq) ∧
        (s.mode ≠ some .dormant → u.watch = s.watch ∧ u.zones = s.zones ∧ u.covers = s.covers ∧ u.lamps = s.lamps ∧
          u.supplies = s.supplies ∧ u.segs = s.segs ∧ u.outdoor = s.outdoor ∧ sameStatuses s u) ∧
        (s.mode = some .dormant →
          (∃ w, w = { s.taken with mode := some m, dormantPending := false, watch := s.watch.stop }.notice .modeChanged 0
              m.code 3 ∧ u = (forEach allZones State.evaluateNow w).retargetAll) ∧
          u.watch.running = false ∧
          (∀ z r, s.zoneRec z = some r → (u.zone z).evalTimer = (s.zone z).evalTimer.start ⟨1, r.period⟩) ∧
          ∀ id d l, s.point id = some d → s.lamp id = some l →
            ∃ l', u.lamp id = some l' ∧ l'.target = (u.governing d).1) ∧
        sameStation s u ∧ sameSources s u ∧ samePlant s u ∧ sameLink s u ∧ sameTrims s u ∧ u.inputs = s.inputs ∧
        u.echoes = s.echoes ∧ keepsNotices s u

/-- MODE_REQUEST for DORMANT: nothing changes in DORMANT; a blocker defers it, with the first of R169 as its reason,
the mode NIGHT, noticed where it changes, and dormant-pending set; otherwise the hall goes DORMANT, with its notice:
the watch starts, every in-use zone stops its evaluations with its request and its grant 0, its heat pump off and its
outputs last sent 0, each of its CLIMATE-owned output points has SET 0 placed or is marked for resend, and every lamp
of the strip gets target 0, one whose target changes with the dark fade, by a retarget of them all (R113, R148, R164, R167
to R169). The notices are those there is room for. -/
def Obligations.DormantRequestEntersOrIsDeferred : Prop :=
  ∀ (seq : Byte) s, s.tx = .hunting → s.runState ≠ .bypass →
    (s.mode = some .dormant → exec (.modeRequest seq 3) s =
      .next (s.taken.reply (virtualHdr 0 0 seq) false ⟨.accepted, none, s32 3 ++ [3, flagByte s.dormantPending]⟩)) ∧
    (s.mode ≠ some .dormant →
      let purging := ∃ c, (s.cover c).purging = true
      let moving := ∃ c, (s.cover c).moving = true
      let risk := ∃ z, (s.zoneRec z).isSome = true ∧ (s.zone z).risk = true
      let evacuating := ∃ i, (s.input i).latch = some .evacuate
      let former : Int := match s.mode with | some m => m.code | none => -1
      (∀ why, (why = Reason.purge ∧ purging) ∨ (why = .moving ∧ ¬ purging ∧ moving) ∨
          (why = .condensation ∧ ¬ purging ∧ ¬ moving ∧ risk) ∨
          (why = .evacuate ∧ ¬ purging ∧ ¬ moving ∧ ¬ risk ∧ evacuating) →
        ∃ u : State, exec (.modeRequest seq 3) s =
            .next (u.reply (virtualHdr 0 0 seq) false ⟨.deferred, some why, s32 3 ++ [2, 1]⟩) ∧
          u.mode = some .night ∧ u.dormantPending = true ∧ u.watch = s.watch ∧ u.zones = s.zones ∧ u.covers = s.covers ∧
          u.lamps = s.lamps ∧ u.supplies = s.supplies ∧ u.segs = s.segs ∧ u.inputs = s.inputs ∧ sameStation s u ∧
          sameSources s u ∧ samePlant s u ∧ sameStatuses s u ∧ u.echoes = s.echoes ∧ keepsNotices s u ∧
          (s.mode ≠ some .night → s.upstream.length < 64 → hasNotice u .modeChanged 0 2 former s.noticeSeq) ∧
          (s.mode = some .night → u = { s.taken with dormantPending := true })) ∧
      (¬ purging → ¬ moving → ¬ risk → ¬ evacuating →
        ∃ u : State, exec (.modeRequest seq 3) s =
            .next (u.reply (virtualHdr 0 0 seq) false ⟨.accepted, none, s32 3 ++ [3, 0]⟩) ∧
          u.mode = some .dormant ∧ u.dormantPending = false ∧ u.watch = s.watch.start s.hall.watch ∧
          u = ({ s.taken with
            mode := some .dormant, dormantPending := false, watch := s.watch.start s.hall.watch }.notice .modeChanged 0 3
              former).climateSleep.retargetAll ∧
          (∀ z, (s.zoneRec z).isSome = true → (u.zone z).evalTimer.running = false ∧ (u.zone z).request = 0 ∧
            (u.zone z).hp = false ∧ (z ∈ s.priority → (u.zone z).grant = 0) ∧ (u.zone z).lastValve = some 0 ∧
            (u.zone z).lastOa = some 0 ∧ (u.zone z).lastFan = some 0 ∧ (u.zone z).lastStage = some 0 ∧
            (u.zone z).risk = (s.zone z).risk ∧ (u.zone z).holdTimer = (s.zone z).holdTimer) ∧
          (∀ id d l, s.point id = some d → s.lamp id = some l → ∃ l', u.lamp id = some l' ∧ l'.target = 0 ∧
            (l.target ≠ 0 → l'.fade = s.hall.darkFade ∧ l'.elapsed = 0)) ∧
          (∀ d ∈ s.points, ∀ z, climateOutput z d → (s.zoneRec z).isSome = true → (s.points.map (·.id)).Nodup →
            s.lamp d.id = none → (statusIn s.table d.id).isSome = true →
            hasSet u d.id (clampTo d.low d.high 0) .climate ∨ (u.status d.id).resend = true) ∧
          (s.upstream.length < 64 → hasNotice u .modeChanged 0 3 former s.noticeSeq) ∧
          u.covers = s.covers ∧ sameStation s u ∧ sameSources s u ∧ samePlant s u ∧ sameLink s u ∧ sameTrims s u ∧
          sameStatuses s u ∧ u.inputs = s.inputs ∧ u.echoes = s.echoes ∧ keepsNotices s u))

/-- PLANT_CAPACITY stores its value, clamped to 0..4000, also while a trip is in force, and runs one allocation pass;
nothing else changes. The pass gives each zone of the priority order, in order, the smaller of its request and the
plant that remains, so that the grants together do not exceed the effective capacity; it writes grants alone. The
effective capacity is 0 while a PLANT_TRIP latch is set (R116, R118, R119). -/
def Obligations.PlantCapacityIsStoredAndShared : Prop :=
  (∀ (seq : Byte) (v : Int) s, s.tx = .hunting → s.runState ≠ .bypass →
     let k := if v < 0 then 0 else if v > 4000 then 4000 else v
     exec (.plantCapacity seq v) s =
       .next ({ s.taken with capacity := some k.toNat }.allocate.reply (virtualHdr 0 1 seq) false (.ok (s32 k)))) ∧
  (∀ s : State, s.priority.Nodup →
     let t := s.allocate
     (∀ pre z post, s.priority = pre ++ z :: post →
       (t.zone z).grant = min (s.zone z).request (s.effectiveCapacity - (pre.map fun y => (t.zone y).grant).sum)) ∧
     (s.priority.map fun z => (t.zone z).grant).sum ≤ s.effectiveCapacity ∧
     (∀ z, t.zone z = { s.zone z with grant := (t.zone z).grant }) ∧
     (∀ z, z ∉ s.priority → (t.zone z).grant = (s.zone z).grant) ∧ t = { s with zones := t.zones } ∧
     ((∃ i, (s.input i).latch = some .plantTrip) → s.effectiveCapacity = 0) ∧
     ∀ k, (∀ i, (s.input i).latch ≠ some .plantTrip) → s.capacity = some k → s.effectiveCapacity = k)

/-- ZONE_TRIM stores its value, clamped to -200..+200, in the zone, in use or not, and changes nothing else.
ZONE_OVERRIDE: a SET that names the state the override has changes nothing; on removes the queued job entries of the
zone's points that allow override, so that none is left but for lamps and their supplies under an EVACUATE latch, and
marks each such point for resend while no such latch is set; off resyncs the zone's job-owned points that allow
override, in ascending point index. Both make no notice and write nothing but the override, the send queues, the flags
of statuses, and the lamps and supplies, and these only where some supply is POWERING (R68 to R70, R72, R158). -/
def Obligations.ZoneTrimAndOverride : Prop :=
  (∀ (z : Fin 8) (seq : Byte) (v : Int) s, s.tx = .hunting → s.runState ≠ .bypass →
     let k := if v < -200 then -200 else if v > 200 then 200 else v
     exec (.zoneTrim z seq v) s =
       .next ((s.taken.setZone z { s.zone z with trim := k }).reply (virtualHdr 3 z.val seq) false (.ok (s32 k)))) ∧
  (∀ (z : Fin 8) (seq : Byte) s, s.tx = .hunting → s.runState ≠ .bypass →
     ((s.zone z).override = true → exec (.zoneOverride z seq 1) s =
       .next (s.taken.reply (virtualHdr 2 z.val seq) false (.ok (s32 1)))) ∧
     ((s.zone z).override = false → exec (.zoneOverride z seq 0) s =
       .next (s.taken.reply (virtualHdr 2 z.val seq) false (.ok (s32 0)))) ∧
     ((s.zone z).override = false → ∃ u : State,
       exec (.zoneOverride z seq 1) s = .next (u.reply (virtualHdr 2 z.val seq) false (.ok (s32 1))) ∧
         (∀ y, (u.zone y).override = (if y = z then true else (s.zone y).override) ∧ (u.zone y).trim = (s.zone y).trim) ∧
         (∀ g, ∀ e ∈ (s.segment g).queue,
           (e.origin = .station ∨ ∀ d ∈ s.points, d.id = e.point → ¬ (d.override = true ∧ d.zone = some z)) →
           ∃ f ∈ (u.segment g).queue, f.point = e.point) ∧
         (∀ g, ∀ e ∈ (u.segment g).queue, e.origin ≠ .station → ∀ d,
           s.point e.point = some d → d.override = true → d.zone = some z →
           (∃ i, (s.input i).latch = some .evacuate) ∧ (d.role = .actuator .lamp ∨ d.role = .actuator .lampSupply)) ∧
         ((∀ i, (s.input i).latch ≠ some .evacuate) → ∀ g, ∀ e ∈ (s.segment g).queue, e.origin ≠ .station → ∀ d,
           s.point e.point = some d → d.override = true → d.zone = some z → (statusIn s.table e.point).isSome = true →
           (u.status e.point).resend = true) ∧
         u.covers = s.covers ∧ sameStation s u ∧ sameSources s u ∧ samePlant s u ∧ sameLink s u ∧ sameMode s u ∧
         sameStatuses s u ∧ u.inputs = s.inputs ∧ u.echoes = s.echoes ∧ u.upstream = s.upstream ∧
         (∀ y, u.zone y = { s.zone y with override := (u.zone y).override }) ∧
         ((∀ y m, s.supply y = some m → m.state ≠ .powering) → u.lamps = s.lamps ∧ u.supplies = s.supplies) ∧
         u = { s.taken with zones := u.zones, segs := u.segs, table := u.table, lamps := u.lamps, supplies := u.supplies }) ∧
     ((s.zone z).override = true → ∃ u : State,
       exec (.zoneOverride z seq 0) s = .next (u.reply (virtualHdr 2 z.val seq) false (.ok (s32 0))) ∧
         (∀ y, (u.zone y).override = if y = z then false else (s.zone y).override) ∧
         (∀ y, (u.zone y).trim = (s.zone y).trim) ∧ u.covers = s.covers ∧ sameStation s u ∧ sameSources s u ∧
         samePlant s u ∧ sameLink s u ∧ sameMode s u ∧ sameStatuses s u ∧ u.inputs = s.inputs ∧ u.echoes = s.echoes ∧
         u.upstream = s.upstream ∧
         (∃ l : List PointDef, u = forEach l (fun d => State.resync d.id)
             (s.taken.setZone z { s.zone z with override := false }) ∧
           l.Pairwise (fun a b => pointIndex a.id ≤ pointIndex b.id) ∧
           l.Perm (s.points.filter fun d =>
             d.override = true ∧ d.zone = some z ∧ d.owner.isSome = true ∧ d.owner ≠ some .station)) ∧
         (∀ y, u.zone y = { s.zone y with override := (u.zone y).override }) ∧
         ((∀ y m, s.supply y = some m → m.state ≠ .powering) → u.lamps = s.lamps ∧ u.supplies = s.supplies) ∧
         u = { s.taken with zones := u.zones, segs := u.segs, table := u.table, lamps := u.lamps, supplies := u.supplies }))

/-! ### Lighting -/

/-- A retarget event, on a strip with one record for each lamp (kept by every step, EveryStepKeepsAgesAndLatches),
gives every lamp it names its governing level, with the governing fade from where the lamp stands; a lamp already at
that target, or not named, keeps its target and its fade. What governs: an EVACUATE latch, then DORMANT, then the
playing step of the lamp's source, then 0 with the dark fade (R146, R147). The supply of each zone that holds a named lamp
is examined on the targets so given: OFF with demand submits SET 1 to every supply point and awaits those placed, ON
where none is; STOPPING with demand is ON; ON without demand is STOPPING, but not while an EVACUATE latch is set; any
other is kept, a POWERING one while none of its points is wanted again. Each lamp whose target changed is then deferred,
with no SET, while its zone's supply is POWERING, and is otherwise submitted its target with its fade; a lamp that was
deferred is sent its target at its supply's release. The lamps and supply points of those zones that are wanted again are
submitted their current output, and nothing else is submitted but at the halts (R148, R157, R158, R160). In each zone
with a lamp whose target changed, every moving cover whose work-light minimum the zone's work level is then below halts
for DARK, with its drive submitted SET 0 and its event queued where there is room; every other cover is kept, and nothing
else is written but lamps, supplies and the SETs (R128, R148). Of the events of Table 9-4, every lamp of the strip is
named by `retargetAll`, which the statements of DORMANT and of an evacuation's end take; a step entered and CUE_SELECT 255
name the source's lamps (CueCommandsEnterSteps), and SPLIT_POSITION those whose source it changes (R155). -/
def Obligations.RetargetGivesGoverningLevels : Prop :=
  ((∀ (s : State) (d : PointDef),
     ((∃ i, (s.input i).latch = some .evacuate) → s.governing d = (1000, 0)) ∧
     ((∀ i, (s.input i).latch ≠ some .evacuate) →
       (s.mode = some .dormant → s.governing d = (0, s.hall.darkFade)) ∧
       (s.mode ≠ some .dormant →
         let src : SourceId := if d.strip < s.split then .a else .b
         (∀ l k, (s.source src).playing = some (l, k) →
           let step := (s.loop l).steps[k]
           s.governing d = ((s.palette.entries[Fin.ofNat 64 step.scene]).level d.lampClass, step.fade)) ∧
         ((s.source src).playing = none → s.governing d = (0, s.hall.darkFade))))) ∧
   ∀ (s : State) (named : PointDef → Bool) id d l, (s.lamps.map (·.id)).Nodup → s.point id = some d → s.lamp id = some l →
     ∃ l', (s.retarget named []).lamp id = some l' ∧
       (named d = true → l.target ≠ (s.governing d).1 →
         l'.target = (s.governing d).1 ∧ l'.fade = (s.governing d).2 ∧ l'.elapsed = 0 ∧
         l'.expected = if (s.governing d).2 = 0 then (s.governing d).1 else l.expected) ∧
       (named d = false ∨ l.target = (s.governing d).1 →
         l'.target = l.target ∧ l'.fade = l.fade ∧ l'.start = l.start)) ∧
  (∀ (s : State) (named : PointDef → Bool), (s.lamps.map (·.id)).Nodup →
     let t := s.retarget named []
     let noted (z : Nat) : Prop := ∃ d ∈ s.points, s.point d.id = some d ∧ d.zone.map (·.val) = some z ∧ named d = true ∧
       ∃ l, s.lamp d.id = some l ∧ l.target ≠ (s.governing d).1
     (∀ c r, s.coverRec c = some r →
       let v := s.cover c
       (noted r.zone → v.moving = true → t.workLevel r.zoneNo < r.workLight → haltedFor s t c r .dark 5) ∧
       (¬ noted r.zone ∨ v.moving = false ∨ (r.workLight : Int) ≤ t.workLevel r.zoneNo → t.cover c = v)) ∧
     (∀ c, s.coverRec c = none → t.cover c = s.cover c) ∧
     t.zones = s.zones ∧ sameStation s t ∧ sameRun s t ∧ sameSources s t ∧ samePlant s t ∧ sameLink s t ∧ sameMode s t ∧
     sameStatuses s t ∧ t.inputs = s.inputs ∧ t.echoes = s.echoes ∧ keepsNotices s t) ∧
  (∀ (s : State) (named : PointDef → Bool), s.stripLawful → (s.points.map (·.id)).Nodup →
     let t := s.retarget named []
     let holds (z : Fin 8) : Prop :=
       ∃ d, s.point d.id = some d ∧ (s.lamp d.id).isSome = true ∧ d.zone = some z ∧ named d = true
     (∀ z, ¬ holds z → t.supply z = s.supply z) ∧
     (∀ z m, holds z → s.supply z = some m →
       (m.state = .off → t.demand z = false → t.supply z = some m) ∧
       (m.state = .off → t.demand z = true →
         (∃ l, t.supply z = some { m with state := if l = [] then .on else .powering, awaiting := l } ∧
           ∀ id, id ∈ l ↔ id ∈ s.supplyPoints z ∧ ∃ d, s.point id = some d ∧ s.overrideInForce d = false ∧
             s.nodePresent id = true ∧ t.queueFull id = false) ∧
         ∀ id ∈ s.supplyPoints z, ∀ d, s.point id = some d → (statusIn s.table id).isSome = true →
           t.submitted .lighting d 1 0) ∧
       (m.state = .stopping → t.demand z = true →
         t.supply z = some { m with state := .on, offDelay := m.offDelay.stop }) ∧
       (m.state = .stopping → t.demand z = false → t.supply z = some m) ∧
       (m.state = .on → t.demand z = true ∨ (∃ i, (s.input i).latch = some .evacuate) → t.supply z = some m) ∧
       (m.state = .on → t.demand z = false → (∀ i, (s.input i).latch ≠ some .evacuate) → m.offDelay.running = false →
         t.supply z = some { m with state := .stopping, offDelay := m.offDelay.start s.hall.supplyOff }) ∧
       (m.state = .powering → (∀ id ∈ s.supplyPoints z, (s.status id).resend = false) → t.supply z = some m) ∧
       ∀ id ∈ s.supplyPoints z, ∀ d, s.point id = some d → (s.status id).resend = true →
         (statusIn s.table id).isSome = true →
         t.submitted .lighting d (if t.supplyState z = some .off then 0 else 1) 0) ∧
     (∀ d l, s.point d.id = some d → s.lamp d.id = some l → (statusIn s.table d.id).isSome = true →
       let g := s.governing d
       let powering : Prop := ∃ z, d.zone = some z ∧ t.supplyState z = some .powering
       (named d = true → l.target ≠ g.1 →
         (powering → (∃ l', t.lamp d.id = some l' ∧ l'.deferred = true) ∧
           ∀ e ∈ (t.segment (pointSeg d.id)).queue, e.point = d.id → e ∈ (s.segment (pointSeg d.id)).queue) ∧
         (¬ powering → t.submitted .lighting d g.1 g.2 ∧
           (l.deferred = false → ∃ l', t.lamp d.id = some l' ∧ l'.deferred = false))) ∧
       (named d = false ∨ l.target = g.1 →
         (l.deferred = false ∨ powering ∨ (∀ z, d.zone = some z → ¬ holds z) → t.lamp d.id = some l) ∧
         (∀ z, d.zone = some z → holds z → (s.status d.id).resend = true → l.deferred = false →
           ¬ powering ∨ l.target = 0 → t.submitted .lighting d l.target (l.fade - l.elapsed)) ∧
         ∀ z, d.zone = some z → s.supplyState z = some .powering → ¬ powering → l.deferred = true →
           t.lamp d.id = some { l with deferred := false, elapsed := 0 } ∧ t.submitted .lighting d l.target l.fade)) ∧
     ∀ g, ∀ e ∈ (t.segment g).queue, e ∈ (s.segment g).queue ∨ ∃ d, s.point e.point = some d ∧
       ((e.origin = .lighting ∧ (d.role = .actuator .lamp ∨ d.role = .actuator .lampSupply) ∧
           (named d = true ∨ ∃ z, d.zone = some z ∧ holds z)) ∨
         (e.origin = .cover ∧ ∃ c r, s.coverRec c = some r ∧ (s.cover c).moving = true ∧ (t.cover c).moving = false ∧
           (e.point = r.drive ∨ e.point = r.fan)))) ∧
  (∀ s : State, s.retargetAll = s.retarget (fun _ => true) []) ∧
  ∀ (seq : Byte) (v : Int) s, s.tx = .hunting → s.runState ≠ .bypass →
    let k := if v < 0 then 0 else if v > 96 then 96 else v
    exec (.splitPosition seq v) s =
      .next ((settle s.taken ({ s.taken with split := k.toNat }.retarget
        (fun d => decide (¬ (d.strip < s.split ↔ d.strip < k.toNat))) [])).reply (virtualHdr 0 2 seq) false (.ok (s32 k)))

/-- SPLIT_POSITION: the split becomes the value clamped to 0..96, and the lamps whose source it changes are
retargeted; a split equal to the one in force retargets nothing. The sources, zones, palette and loops are kept
(R155). -/
def Obligations.SplitPositionMovesLamps : Prop :=
  ∀ (seq : Byte) (v : Int) s, s.tx = .hunting → s.runState ≠ .bypass →
    let k := if v < 0 then 0 else if v > 96 then 96 else v
    ∃ u : State,
      exec (.splitPosition seq v) s = .next ((settle s.taken u).reply (virtualHdr 0 2 seq) false (.ok (s32 k))) ∧
      u.split = k.toNat ∧ u.sourceA = s.sourceA ∧ u.sourceB = s.sourceB ∧
      (∀ id d l, s.point id = some d → s.lamp id = some l → ∃ l', u.lamp id = some l' ∧
        l'.target = if (d.strip < s.split ↔ d.strip < k.toNat) then l.target
          else ({ s with split := k.toNat }.governing d).1) ∧
      (k.toNat = s.split → u = s.taken) ∧
      sameStation s u ∧ samePlant s u ∧ sameLink s u ∧ u.zones = s.zones ∧ sameMode s u ∧ sameStatuses s u ∧
      u.inputs = s.inputs ∧ u.echoes = s.echoes ∧ keepsNotices s u

/-- CUE_SELECT: an empty loop is refused EMPTY; another plays from its step 0 with that step's hold; 255 stops the
source and its timer. CUE_ADVANCE: refused IDLE for a stopped source and NO_MARK when no step carries the channel;
otherwise the step n on, or the first marked step of the L that follow, with that step's hold. The cue-hold timer of a
playing source enters the next step, the first after the last; of a stopped source it only ends; a timer that is not
due does not expire (log 3). The lamps of the source then take their governing levels (R152 to R154). -/
def Obligations.CueCommandsEnterSteps : Prop :=
  ((∀ src (seq : Byte) s, s.tx = .hunting → s.runState ≠ .bypass →
     let hd := virtualHdr 0 (cueChannel 3 src) seq
     (∀ l : Fin 4, (s.loop l).length = 0 → exec (.cueSelect src seq l.val) s =
       .next (s.taken.reply hd false ⟨.refused, some .empty, s32 l.val⟩)) ∧
     (∀ l : Fin 4, (s.loop l).length ≠ 0 →
       let step := (s.loop l).steps[(0 : Fin 64)]
       let w : Source := { playing := some (l, 0), hold := (s.source src).hold.start ⟨step.prescale, step.count⟩ }
       let u := (s.taken.setSource src w).retarget (fun d => s.sourceOf d = src) []
       exec (.cueSelect src seq l.val) s = .next ((settle s.taken u).reply hd false (.ok (s32 l.val))) ∧
         u.source src = w) ∧
     let w : Source := { playing := none, hold := (s.source src).hold.stop }
     let u := (s.taken.setSource src w).retarget (fun d => s.sourceOf d = src) []
     exec (.cueSelect src seq 255) s = .next ((settle s.taken u).reply hd false (.ok (s32 255))) ∧ u.source src = w) ∧
   ∀ src (seq : Byte) s, s.tx = .hunting → s.runState ≠ .bypass →
     let hd := virtualHdr 0 (cueChannel 5 src) seq
     (∀ v : Int, (1 ≤ v ∧ v ≤ 63) ∨ (101 ≤ v ∧ v ≤ 108) → (s.source src).playing = none →
       exec (.cueAdvance src seq v) s = .next (s.taken.reply hd false ⟨.refused, some .idle, s32 v⟩)) ∧
     ∀ l k, (s.source src).playing = some (l, k) →
       let L := (s.loop l).length
       let enters (j : Fin 64) (v : Int) : Prop :=
         let step := (s.loop l).steps[j]
         let w : Source := { playing := some (l, j), hold := (s.source src).hold.start ⟨step.prescale, step.count⟩ }
         let u := (s.taken.setSource src w).retarget (fun d => s.sourceOf d = src) []
         exec (.cueAdvance src seq v) s = .next ((settle s.taken u).reply hd false (.ok (s32 v))) ∧ u.source src = w
       (∀ n : Nat, 1 ≤ n → n ≤ 63 → enters (Fin.ofNat 64 ((k.val + n) % L)) n) ∧
       (∀ (c i : Nat), 1 ≤ c → c ≤ 8 → L ≤ 64 → i < L →
         (s.loop l).steps[Fin.ofNat 64 ((k.val + 1 + i) % L)].marks.getLsbD (c - 1) = true →
         (∀ j < i, (s.loop l).steps[Fin.ofNat 64 ((k.val + 1 + j) % L)].marks.getLsbD (c - 1) = false) →
         enters (Fin.ofNat 64 ((k.val + 1 + i) % L)) ((100 + c : Nat) : Int)) ∧
       ∀ c : Nat, 1 ≤ c → c ≤ 8 →
         (∀ i < L, (s.loop l).steps[Fin.ofNat 64 ((k.val + 1 + i) % L)].marks.getLsbD (c - 1) = false) →
         exec (.cueAdvance src seq ((100 + c : Nat) : Int)) s =
           .next (s.taken.reply hd false ⟨.refused, some .noMark, s32 ((100 + c : Nat) : Int)⟩)) ∧
  (∀ src s,
     (s.timerDue (.cueHold src) = false → exec (.cueHoldExpiry src) s = .next s) ∧
     (s.timerDue (.cueHold src) = true → (s.source src).playing = none →
       exec (.cueHoldExpiry src) s =
         .next (s.setSource src { playing := none, hold := (s.source src).hold.expireSingle })) ∧
     ∀ l k, s.timerDue (.cueHold src) = true → (s.source src).playing = some (l, k) →
       let j := Fin.ofNat 64 ((k.val + 1) % (s.loop l).length)
       let step := (s.loop l).steps[j]
       let w : Source := { playing := some (l, j), hold := (s.source src).hold.expireSingle.start ⟨step.prescale, step.count⟩ }
       let u := (s.setSource src w).retarget (fun d => s.sourceOf d = src) []
       exec (.cueHoldExpiry src) s = .next (settle s u) ∧ u.source src = w ∧
         (settle s u).source src = w ∧ sameStation s (settle s u) ∧ sameRun s (settle s u) ∧
         samePlant s (settle s u) ∧ sameTrims s (settle s u) ∧ sameLink s (settle s u) ∧
         (settle s u).inputs = s.inputs ∧ sameStatuses s (settle s u))

/-- A 0.1 s tick raises the elapsed time of each fade that runs, to its length and not for a deferred lamp, and
changes nothing else; the expected level is the start level and the elapsed share of the way to the target, truncated,
and the target once the fade has run or is of length 0 (of a deferred lamp too: log 46). The zone lamp load is the sum
of expected level by watts, divided by 1000; the zone work level is 1000 without AMBIENT lamps, 0 while the supply is
not ON, and otherwise the least of the AMBIENT lamps' expected levels and targets (R149, R161, R162). -/
def Obligations.FadesMoveExpectedLevels : Prop :=
  ((∀ s, ∃ t : State, exec .fadeTick s = .next t ∧ t = { s with lamps := t.lamps } ∧
     t.lamps.map (·.id) = s.lamps.map (·.id) ∧
     ∀ id l, s.lamp id = some l → t.lamp id =
       some (if l.deferred = false ∧ l.elapsed < l.fade then { l with elapsed := l.elapsed + 1 } else l)) ∧
   ∀ l : Lamp,
     (l.fade = 0 → l.expected = l.target) ∧ (l.fade ≠ 0 → l.elapsed = l.fade → l.expected = l.target) ∧
     (l.fade ≠ 0 → l.elapsed = 0 → l.expected = l.start) ∧
     (l.fade ≠ 0 → l.expected = l.start + ((l.target - l.start) * l.elapsed).tdiv l.fade)) ∧
  (∀ (s : State) z,
     s.lampLoad z = ((s.zoneLamps z).map fun p => p.2.expected * (p.1.watts : Int)).sum.tdiv 1000 ∧
     ((∀ p ∈ s.zoneLamps z, p.1.lampClass ≠ .ambient) → s.workLevel z = 1000) ∧
     ((∃ p ∈ s.zoneLamps z, p.1.lampClass = .ambient) → (∃ m, s.supply z = some m ∧ m.state ≠ .on) →
       s.workLevel z = 0) ∧
     ((∃ p ∈ s.zoneLamps z, p.1.lampClass = .ambient) → (∀ m, s.supply z = some m → m.state = .on) →
       (∀ p ∈ s.zoneLamps z, p.1.lampClass = .ambient → s.workLevel z ≤ min p.2.expected p.2.target) ∧
       ∃ p ∈ s.zoneLamps z, p.1.lampClass = .ambient ∧ s.workLevel z = min p.2.expected p.2.target))

/-- The off delay of a STOPPING supply submits SET 0 to each supply point, placed or marked for resend, and the supply
is OFF; in another state the expiry only ends the timer; a timer that is not due does not expire (log 3). At an
examination, OFF with demand submits SET 1 to each supply point, placed or marked for resend, and the supply is
POWERING with the placed points awaited, or ON where none is placed; STOPPING with demand is ON again with its delay
stopped, ON without demand starts the off delay unless an EVACUATE latch is set, and POWERING is left (R157, R159).
The last awaited point to leave a POWERING supply releases it: ON, each deferred lamp sent its target and its fade
begun, and then examined (R158). -/
def Obligations.SuppliesFollowDemand : Prop :=
  (∀ z s,
     (s.timerDue (.supplyOffDelay z) = false → exec (.supplyOffDelayExpiry z) s = .next s) ∧
     ∀ m, s.timerDue (.supplyOffDelay z) = true → s.supply z = some m →
       (m.state ≠ .stopping → exec (.supplyOffDelayExpiry z) s =
         .next (s.setSupply z (some { m with offDelay := m.offDelay.expireSingle }))) ∧
       (m.state = .stopping → ∃ t : State, exec (.supplyOffDelayExpiry z) s = .next t ∧
         t.supply z = some { m with state := .off, offDelay := m.offDelay.expireSingle } ∧
         (∀ y, y ≠ z → t.supply y = s.supply y) ∧
         (∀ id ∈ s.supplyPoints z, ∀ d, s.point id = some d → d.role = .actuator .lampSupply → s.lamp id = none →
           (statusIn s.table id).isSome = true →
           hasSet t id (clampTo d.low d.high 0) .lighting ∨ (t.status id).resend = true) ∧
         t.covers = s.covers ∧ t.zones = s.zones ∧ t.lamps = s.lamps ∧ sameStation s t ∧ sameRun s t ∧ sameSources s t ∧
         samePlant s t ∧ sameLink s t ∧ sameMode s t ∧ sameStatuses s t ∧ t.inputs = s.inputs ∧ t.echoes = s.echoes ∧
         t.upstream = s.upstream)) ∧
  (∀ (s : State) z m, s.supply z = some m →
     (m.state = .powering → s.examineSupply z = s) ∧
     (m.state = .off → s.demand z = false → s.examineSupply z = s) ∧
     (m.state = .off → s.demand z = true → ∃ t n, s.examineSupply z = t ∧ t.supply z = some n ∧ n.offDelay = m.offDelay ∧
       (n.state = .powering ∧ n.awaiting ≠ [] ∧ t.lamps = s.lamps ∧
           (∀ id, id ∈ n.awaiting ↔ id ∈ s.supplyPoints z ∧ ∃ d, s.point id = some d ∧ s.overrideInForce d = false ∧
             s.nodePresent id = true ∧ t.queueFull id = false) ∨
         n.state = .on ∧ n.awaiting = [] ∧
           (∀ id ∈ s.supplyPoints z, ∀ d, s.point id = some d →
             s.overrideInForce d = true ∨ s.nodePresent id = false ∨ s.queueFull id = true) ∧
           ∀ id d l, s.point id = some d → d.zone = some z → s.lamp id = some l → l.deferred = true →
             t.lamp id = some { l with deferred := false, elapsed := 0 }) ∧
       (∀ id ∈ s.supplyPoints z, ∀ d, s.point id = some d → d.role = .actuator .lampSupply → s.lamp id = none →
         (statusIn s.table id).isSome = true →
         hasSet t id (clampTo d.low d.high 1) .lighting ∨ (t.status id).resend = true) ∧
       (∀ y, y ≠ z → t.supply y = s.supply y) ∧ t.zones = s.zones ∧ t.covers = s.covers ∧ sameStatuses s t) ∧
     (m.state = .stopping → s.demand z = true →
       s.examineSupply z = s.setSupply z (some { m with state := .on, offDelay := m.offDelay.stop })) ∧
     (m.state = .stopping → s.demand z = false → s.examineSupply z = s) ∧
     (m.state = .on → s.demand z = true → s.examineSupply z = s) ∧
     (m.state = .on → s.demand z = false → (∀ i, (s.input i).latch ≠ some .evacuate) → m.offDelay.running = false →
       s.examineSupply z =
         s.setSupply z (some { m with state := .stopping, offDelay := m.offDelay.start s.hall.supplyOff })) ∧
     (m.state = .on → (∃ i, (s.input i).latch = some .evacuate) → s.examineSupply z = s)) ∧
  ((∀ (s : State) z id m, s.supply z = some m →
     (m.state ≠ .powering ∨ id ∉ m.awaiting → s.leaveAwaiting z id = s) ∧
     (m.state = .powering → id ∈ m.awaiting → (∃ x ∈ m.awaiting, x ≠ id) →
       s.leaveAwaiting z id = s.setSupply z (some { m with awaiting := m.awaiting.filter (· ≠ id) })) ∧
     (m.state = .powering → id ∈ m.awaiting → (∀ x ∈ m.awaiting, x = id) →
       s.leaveAwaiting z id =
         ((s.setSupply z (some { m with awaiting := [] })).releaseSupply z).lightOpportunity z)) ∧
   ∀ (s : State) z m, s.supply z = some m →
     let t := s.releaseSupply z
     (s.demand z = true ∨ (∃ i, (s.input i).latch = some .evacuate) →
       t.supply z = some { m with state := .on, awaiting := [] }) ∧
     (s.demand z = false → (∀ i, (s.input i).latch ≠ some .evacuate) → m.offDelay.running = false →
       t.supply z = some { m with state := .stopping, awaiting := [], offDelay := m.offDelay.start s.hall.supplyOff }) ∧
     (∀ y, y ≠ z → t.supply y = s.supply y) ∧
     (∀ id d l, s.point id = some d → d.zone = some z → s.lamp id = some l → l.deferred = true →
       t.lamp id = some { l with deferred := false, elapsed := 0 } ∧
       (d.role = .actuator .lamp → (statusIn s.table id).isSome = true →
         hasSet t id (clampTo d.low d.high l.target) .lighting ∨ (t.status id).resend = true)) ∧
     (∀ id l, s.lamp id = some l → (∀ d, s.point id = some d → d.zone ≠ some z) → t.lamp id = some l) ∧
     t.zones = s.zones ∧ t.covers = s.covers ∧ sameStatuses s t)

/-! ### Covers -/

/-- The interlocks of a CLOSE or OPEN, the first that fails giving the reason, and what a COVER_COMMAND for a cover
not in use answers: STATE, whatever its value, with nothing changed but the free value's counter (R121; log 25). -/
def Obligations.CoverInterlocksInOrder : Prop :=
  (∀ (s : State) (r : CoverRec) closing,
    let noMode := s.mode ≠ some .staffed ∧ s.mode ≠ some .night
    let occupied := closing = true ∧ (s.zone r.zoneNo).occupied = true
    let blind := (s.status r.position).quality ≠ .good
    let dark := s.workLevel r.zoneNo < r.workLight
    let stopped := ∃ i, (s.input i).latch = some .coverStop ∨ (s.input i).latch = some .evacuate
    (noMode → s.interlock r closing = some .mode) ∧
    (¬ noMode → occupied → s.interlock r closing = some .occupied) ∧
    (¬ noMode → ¬ occupied → blind → s.interlock r closing = some .sensor) ∧
    (¬ noMode → ¬ occupied → ¬ blind → dark → s.interlock r closing = some .dark) ∧
    (¬ noMode → ¬ occupied → ¬ blind → ¬ dark → stopped → s.interlock r closing = some .stopped) ∧
    (¬ noMode → ¬ occupied → ¬ blind → ¬ dark → ¬ stopped → s.interlock r closing = none)) ∧
  ∀ (c : Fin 6) (seq : Byte) s, s.tx = .hunting → s.runState ≠ .bypass → s.coverRec c = none →
    ∀ p ∈ [(Instr.coverStop c seq, (0 : Int)), (.coverClose c seq, 1), (.coverOpen c seq, 2), (.resetFault c seq, 3)],
      ∃ b n, exec p.1 s = .next ({ s.taken with freeCount := n }.reply (virtualHdr 1 c.val seq) false
        ⟨.refused, some .state, s32 p.2 ++ [b]⟩)

/-- CLOSE by the state of an in-use cover: BUSY while it moves, STATE in FAULT and when CLOSED with no open pending, a
pending open withdrawn, and from OPEN or HALTED the interlocks; when all pass the cover is CLOSING with a full travel
time and its drive is submitted SET 1. Other covers, the zones and the lamps are kept (R122, R126). -/
def Obligations.CloseByCoverState : Prop :=
  ∀ (c : Fin 6) (seq : Byte) s r, s.tx = .hunting → s.runState ≠ .bypass → s.coverRec c = some r →
    let hd := virtualHdr 1 c.val seq
    let v := s.cover c
    let body := s32 1 ++ [byteOf v.state.code]
    (v.state = .closing ∨ v.state = .opening →
      exec (.coverClose c seq) s = .next (s.taken.reply hd false ⟨.refused, some .busy, body⟩)) ∧
    (v.state = .fault ∨ (v.state = .closed ∧ v.openPending = false) →
      exec (.coverClose c seq) s = .next (s.taken.reply hd false ⟨.refused, some .state, body⟩)) ∧
    (v.state = .closed → v.openPending = true → exec (.coverClose c seq) s =
      .next ((s.taken.setCover c { v with openPending := false }).reply hd false ⟨.accepted, none, body⟩)) ∧
    (v.state = .opened ∨ v.state = .halted →
      (∀ why, s.interlock r true = some why →
        exec (.coverClose c seq) s = .next (s.taken.reply hd false ⟨.refused, some why, body⟩)) ∧
      (s.interlock r true = none → ∃ u : State,
        exec (.coverClose c seq) s = .next (u.reply hd false ⟨.accepted, none, s32 1 ++ [1]⟩) ∧
        (∀ j, u.cover j = if j = c then
          { v with state := .closing, haltReason := none, derivePending := false
                   travel := v.travel.start (travelPair r.travel) } else s.cover j) ∧
        (∀ d, s.point r.drive = some d → d.role = .actuator .coverDrive → r.fan ≠ r.drive →
          (statusIn s.table r.drive).isSome = true →
          hasSet u r.drive (clampTo d.low d.high 1) .cover ∨ (u.status r.drive).resend = true) ∧
        u.zones = s.zones ∧ u.lamps = s.lamps ∧ u.supplies = s.supplies ∧ u.latched = s.latched ∧
        u.upstream = s.upstream ∧ sameStation s u ∧ sameSources s u ∧ samePlant s u ∧ sameLink s u ∧ sameMode s u ∧
        sameStatuses s u ∧ u.inputs = s.inputs ∧ u.echoes = s.echoes))

/-- OPEN by the state of an in-use cover: BUSY, STATE, the interlocks without occupancy; with VALID set, or HALTED
with no purge, the cover is OPENING with its purge machine IDLE and the purge timers stopped; in any other case the
open is pending and a waiting purge starts its run at once, its fan submitted SET 1. At the start of an opening and of
a run the purge floors of the cover's zone are formed afresh: the largest of its in-use covers whose purge runs, or 0
(R123, R126, R131, R135). -/
def Obligations.OpenByCoverState : Prop :=
  ∀ (c : Fin 6) (seq : Byte) s r, s.tx = .hunting → s.runState ≠ .bypass → s.coverRec c = some r →
    let hd := virtualHdr 1 c.val seq
    let v := s.cover c
    let body := s32 2 ++ [byteOf v.state.code]
    (v.state = .closing ∨ v.state = .opening →
      exec (.coverOpen c seq) s = .next (s.taken.reply hd false ⟨.refused, some .busy, body⟩)) ∧
    (v.state = .opened ∨ v.state = .fault →
      exec (.coverOpen c seq) s = .next (s.taken.reply hd false ⟨.refused, some .state, body⟩)) ∧
    (v.state = .closed ∨ v.state = .halted →
      (∀ why, s.interlock r false = some why →
        exec (.coverOpen c seq) s = .next (s.taken.reply hd false ⟨.refused, some why, body⟩)) ∧
      (s.interlock r false = none → v.valid = true ∨ (v.state = .halted ∧ v.purge = .idle) → ∃ u : State,
        exec (.coverOpen c seq) s = .next ((settle s.taken u).reply hd false ⟨.accepted, none, s32 2 ++ [3]⟩) ∧
        (∀ j, u.cover j = if j = c then
          { v with state := .opening, haltReason := none, derivePending := false, purge := .idle, openPending := false
                   travel := v.travel.start (travelPair r.travel), interval := v.interval.stop
                   duration := v.duration.stop, validity := v.validity.stop } else s.cover j) ∧
        (∀ d, s.point r.drive = some d → d.role = .actuator .coverDrive → r.fan ≠ r.drive →
          (statusIn s.table r.drive).isSome = true →
          hasSet u r.drive (clampTo d.low d.high 2) .cover ∨ (u.status r.drive).resend = true) ∧
        formsFloorsOf r.zoneNo s u ∧
        u.lamps = s.lamps ∧ u.supplies = s.supplies ∧ u.upstream = s.upstream ∧ sameStation s u ∧ sameSources s u ∧
        samePlant s u ∧ sameLink s u ∧ sameTrims s u ∧ sameMode s u ∧ sameStatuses s u ∧ u.inputs = s.inputs ∧
        u.echoes = s.echoes) ∧
      (s.interlock r false = none → v.valid = false → ¬ (v.state = .halted ∧ v.purge = .idle) → v.purge ≠ .waiting →
        exec (.coverOpen c seq) s = .next ((s.taken.setCover c { v with openPending := true }).reply hd false
          ⟨.deferred, some .purge, body⟩)) ∧
      (s.interlock r false = none → v.valid = false → v.purge = .waiting → ∃ u : State,
        exec (.coverOpen c seq) s = .next (u.reply hd false ⟨.deferred, some .purge, body⟩) ∧
        (∀ j, u.cover j = if j = c then
          { v with openPending := true, purge := .running, runFailed := false, confirmed := false
                   interval := v.interval.stop, duration := v.duration.start r.duration
                   validity := v.validity.stop } else s.cover j) ∧
        (∀ d, s.point r.fan = some d → d.role = .actuator .purgeFan → r.fan ≠ r.drive →
          (statusIn s.table r.fan).isSome = true →
          hasSet u r.fan (clampTo d.low d.high 1) .cover ∨ (u.status r.fan).resend = true) ∧
        formsFloorsOf r.zoneNo s u ∧
        u.lamps = s.lamps ∧ u.supplies = s.supplies ∧ u.upstream = s.upstream ∧ sameStation s u ∧ sameSources s u ∧
        samePlant s u ∧ sameLink s u ∧ sameTrims s u ∧ sameMode s u ∧ sameStatuses s u ∧ u.inputs = s.inputs ∧
        u.echoes = s.echoes))

/-- STOP: a moving cover halts for COMMAND, its travel timer stopped and HALTED_COMMAND queued where there is room; in
every state open-pending is cleared and a still cover is left as it is. RESET_FAULT: a cover in FAULT is HALTED for
RESET, any other is refused STATE (R124, R125, R128). -/
def Obligations.StopAndResetFault : Prop :=
  ∀ (c : Fin 6) (seq : Byte) s r, s.tx = .hunting → s.runState ≠ .bypass → s.coverRec c = some r →
    let hd := virtualHdr 1 c.val seq
    let v := s.cover c
    (v.moving = false → exec (.coverStop c seq) s =
      .next ((s.taken.setCover c { v with openPending := false }).reply hd false
        ⟨.accepted, none, s32 0 ++ [byteOf v.state.code]⟩)) ∧
    (v.moving = true → ∃ u : State,
      exec (.coverStop c seq) s = .next ((settle s.taken u).reply hd false ⟨.accepted, none, s32 0 ++ [4]⟩) ∧
      (∀ j, u.cover j = if j = c then
        { v with state := .halted, haltReason := some .command, openPending := false, travel := v.travel.stop }
        else s.cover j) ∧
      (∀ j, (s.cover j).moving = false ∨ j = c → (settle s.taken u).cover j = u.cover j) ∧
      (∀ d, s.point r.drive = some d → d.role = .actuator .coverDrive → r.fan ≠ r.drive →
        (statusIn s.table r.drive).isSome = true →
        hasSet u r.drive (clampTo d.low d.high 0) .cover ∨ (u.status r.drive).resend = true) ∧
      (s.upstream.length < 64 →
        hasNotice u .coverEvent c.val 2 (s.status r.position).value s.noticeSeq) ∧
      u.zones = s.zones ∧ u.lamps = s.lamps ∧ u.supplies = s.supplies ∧ sameStation s u ∧ sameSources s u ∧
      samePlant s u ∧ sameLink s u ∧ sameMode s u ∧ sameStatuses s u ∧ u.inputs = s.inputs ∧ u.echoes = s.echoes ∧
      keepsNotices s u) ∧
    (v.state ≠ .fault → exec (.resetFault c seq) s =
      .next (s.taken.reply hd false ⟨.refused, some .state, s32 3 ++ [byteOf v.state.code]⟩)) ∧
    (v.state = .fault → ∃ u : State,
      exec (.resetFault c seq) s = .next (u.reply hd false ⟨.accepted, none, s32 3 ++ [4]⟩) ∧
      (∀ j, u.cover j = if j = c then
        { v with state := .halted, haltReason := some .reset, derivePending := false } else s.cover j) ∧
      u.latched = s.latched ∧ u.zones = s.zones ∧ u.lamps = s.lamps ∧ u.supplies = s.supplies ∧
      u.upstream = s.upstream ∧ sameStation s u ∧ sameSources s u ∧ samePlant s u ∧ sameLink s u ∧ sameMode s u ∧
      sameStatuses s u ∧ u.inputs = s.inputs ∧ u.echoes = s.echoes)

/-- The travel timer of a moving cover puts it in FAULT, latches COVER_FAULT and queues the event where there is room;
of a still cover it only ends. The purge interval of a WAITING cover starts a run: the flags of the run clear, the
duration timer at its pair, the purge fan submitted SET 1, the purge floors of the zone formed afresh. The validity
timer clears VALID alone. A timer that is not due does not expire (log 3) (R129, R131, R134, R135). -/
def Obligations.TravelTimeoutAndPurgeStart : Prop :=
  (∀ (c : Fin 6) s,
     (s.timerDue (.travel c) = false → exec (.travelTimerExpiry c) s = .next s) ∧
     (s.timerDue (.travel c) = true → (s.cover c).moving = false → exec (.travelTimerExpiry c) s =
       .next (s.setCover c { s.cover c with travel := (s.cover c).travel.expireSingle })) ∧
     ∀ r, s.timerDue (.travel c) = true → (s.cover c).moving = true → s.coverRec c = some r →
       ∃ t u : State, exec (.travelTimerExpiry c) s = .next t ∧ t = settle s u ∧
         (∀ j, u.cover j = if j = c then
           { s.cover c with state := .fault, travel := (s.cover c).travel.expireSingle } else s.cover j) ∧
         (t.cover c).state = .fault ∧ t.latched.coverFault = true ∧
         (s.upstream.length < 64 → hasNotice t .coverEvent c.val 7 (s.status r.position).value s.noticeSeq) ∧
         (∀ d, s.point r.drive = some d → d.role = .actuator .coverDrive → r.fan ≠ r.drive →
           (statusIn s.table r.drive).isSome = true →
           hasSet u r.drive (clampTo d.low d.high 0) .cover ∨ (u.status r.drive).resend = true) ∧
         u.zones = s.zones ∧ u.lamps = s.lamps ∧ u.supplies = s.supplies ∧ sameMode s u ∧ jobFrame s t ∧
         sameStatuses s t ∧ keepsNotices s t) ∧
  (∀ (c : Fin 6) s,
     (s.timerDue (.purgeInterval c) = false → exec (.purgeIntervalExpiry c) s = .next s) ∧
     (s.timerDue (.purgeInterval c) = true → s.coverRec c = none ∨ (s.cover c).purge ≠ .waiting →
       exec (.purgeIntervalExpiry c) s =
         .next (s.setCover c { s.cover c with interval := (s.cover c).interval.expireSingle })) ∧
     (∀ r, s.timerDue (.purgeInterval c) = true → s.coverRec c = some r → (s.cover c).purge = .waiting →
       ∃ t u : State, exec (.purgeIntervalExpiry c) s = .next t ∧ t = settle s u ∧
         (∀ j, u.cover j = if j = c then
           { s.cover c with
             purge := .running, valid := false, runFailed := false, confirmed := false
             interval := (s.cover c).interval.expireSingle, duration := (s.cover c).duration.start r.duration
             validity := (s.cover c).validity.stop } else s.cover j) ∧
         (∀ d, s.point r.fan = some d → d.role = .actuator .purgeFan → r.fan ≠ r.drive →
           (statusIn s.table r.fan).isSome = true →
           hasSet u r.fan (clampTo d.low d.high 1) .cover ∨ (u.status r.fan).resend = true) ∧
         formsFloorsOf r.zoneNo s u ∧ u.lamps = s.lamps ∧ u.supplies = s.supplies ∧ u.upstream = s.upstream ∧ sameMode s u ∧
         jobFrame s t ∧ sameStatuses s t) ∧
     (s.timerDue (.validity c) = false → exec (.validityExpiry c) s = .next s) ∧
     (s.timerDue (.validity c) = true → exec (.validityExpiry c) s =
       .next (s.setCover c { s.cover c with valid := false, validity := (s.cover c).validity.expireSingle })))

/-- The end of a purge run at its duration. It fails for a failed SET or echo, for want of a confirmation, or for a
LOST fan: PURGE_FAILED is latched and noticed with the first cause. It succeeds otherwise: VALID is set, its timer
started with the validity pair, and PURGE_DONE queued. A pending open then starts when the interlocks pass, with the
drive submitted SET 2, the purge machine IDLE and the purge timers stopped, and is abandoned otherwise, with
OPEN_ABANDONED, as it is after a failure; in every case but that start the purge waits again with its interval started.
The fan is submitted SET 0. Both SETs are placed or mark their point for resend. The purge floors of the zone are formed
afresh, without this cover (R126, R133, R135). The notices are those there is room for. A timer that is not due does not
expire (log 3). -/
def Obligations.PurgeRunEnds : Prop :=
  (∀ (c : Fin 6) s, s.timerDue (.purgeDuration c) = false → exec (.purgeDurationExpiry c) s = .next s) ∧
  (∀ (c : Fin 6) s, s.timerDue (.purgeDuration c) = true → s.coverRec c = none ∨ (s.cover c).purging = false →
    exec (.purgeDurationExpiry c) s =
      .next (s.setCover c { s.cover c with duration := (s.cover c).duration.expireSingle })) ∧
  ∀ (c : Fin 6) s r, s.timerDue (.purgeDuration c) = true → s.coverRec c = some r → (s.cover c).purging = true →
    let v := s.cover c
    let failure : Option Nat :=
      if v.runFailed = true then some 1 else if v.confirmed = false then some 2
      else if (s.status r.fan).quality = .lost then some 3 else none
    ∃ t u : State, exec (.purgeDurationExpiry c) s = .next t ∧ t = settle s u ∧
      (∀ j, j ≠ c → u.cover j = s.cover j) ∧ (u.cover c).openPending = false ∧ (u.cover c).duration.running = false ∧
      (∀ why, failure = some why →
        (u.cover c).purge = .waiting ∧ (u.cover c).state = v.state ∧ (u.cover c).valid = v.valid ∧
        (u.cover c).interval = v.interval.start r.interval ∧ u.latched.purgeFailed = true ∧
        (s.upstream.length < 64 →
          hasNotice u .purgeFailed c.val why (if v.openPending then 1 else 0) s.noticeSeq)) ∧
      (failure = none →
        (u.cover c).valid = true ∧
        (s.upstream.length < 64 →
          hasNotice u .purgeDone c.val ((r.validity.prescale * r.validity.count : Nat) : Int) 0 s.noticeSeq) ∧
        (v.openPending = false → (u.cover c).purge = .waiting ∧ (u.cover c).state = v.state ∧
          (u.cover c).interval = v.interval.start r.interval ∧
          (u.cover c).validity = v.validity.start r.validity) ∧
        (v.openPending = true → s.interlock r false = none →
          (u.cover c).state = .opening ∧ (u.cover c).purge = .idle ∧
          (u.cover c).travel = v.travel.start (travelPair r.travel) ∧
          (u.cover c).interval.running = false ∧ (u.cover c).validity.running = false ∧
          ∀ d, s.point r.drive = some d → d.role = .actuator .coverDrive → r.fan ≠ r.drive →
            (statusIn s.table r.drive).isSome = true →
            hasSet u r.drive (clampTo d.low d.high 2) .cover ∨ (u.status r.drive).resend = true) ∧
        (v.openPending = true → s.interlock r false ≠ none →
          (u.cover c).state = v.state ∧ (u.cover c).purge = .waiting ∧
          (u.cover c).interval = v.interval.start r.interval ∧
          (u.cover c).validity = v.validity.start r.validity)) ∧
      (∀ d, s.point r.fan = some d → d.role = .actuator .purgeFan → r.fan ≠ r.drive →
        (statusIn s.table r.fan).isSome = true →
        hasSet u r.fan (clampTo d.low d.high 0) .cover ∨ (u.status r.fan).resend = true) ∧
      (v.openPending = true → failure ≠ none ∨ s.interlock r false ≠ none → s.upstream.length < 63 →
        hasNotice u .coverEvent c.val 8 (s.status r.position).value (s.noticeSeq + 1)) ∧
      formsFloorsOf r.zoneNo s u ∧ u.lamps = s.lamps ∧ u.supplies = s.supplies ∧ sameMode s u ∧ jobFrame s t ∧
      sameStatuses s t ∧ keepsNotices s t

/-- A position delivery by the cover's state: a GOOD sample at 990 or more completes a close, at 10 or less an
opening; a STALE, LOST or SUSPECT quality halts a motion; a GOOD sample resolves a pending derivation; any other
delivery leaves the cover's record and queues nothing, among them one that is not GOOD or no sample to a HALTED cover,
and UNKNOWN or a GOOD change without a sample to a moving one. A completion and a halt submit SET 0 to the drive,
placed or marked for resend; a completion queues CLOSED or OPENED, a halt HALTED_SENSOR, and a derivation resolved to
CLOSED or OPEN its event, where there is room. A cover derived from its position: CLOSED at 990 or more with its purge
waiting, OPEN at 10 or less, HALTED for DERIVED between and, with derive-pending, when the position is unusable; its
flags and its motion and run timers are cleared (R127, R128, R139). -/
def Obligations.PositionsMoveTheCoverState : Prop :=
  (∀ (c : Fin 6) (r : CoverRec) (s : State) (p : Int),
     let v := s.cover c
     let good := s.positionTo c r .good (some p)
     (v.state = .closing → 990 ≤ p → good.cover c = { v with
       state := .closed, haltReason := none, derivePending := false, valid := false, purge := .waiting
       travel := v.travel.stop, validity := v.validity.stop, interval := v.interval.start r.interval }) ∧
     (v.state = .opening → p ≤ 10 → good.cover c = { v with state := .opened, travel := v.travel.stop }) ∧
     (∀ q x, q = .stale ∨ q = .lost ∨ q = .suspect → v.moving = true →
       (s.positionTo c r q x).cover c = { v with
         state := .halted, haltReason := some .sensor, travel := v.travel.stop }) ∧
     (v.state = .halted → v.derivePending = true →
       (990 ≤ p → good.cover c = { v with
         state := .closed, haltReason := none, derivePending := false, valid := false, purge := .waiting
         validity := v.validity.stop, interval := v.interval.start r.interval }) ∧
       (p ≤ 10 → good.cover c = { v with state := .opened, haltReason := none, derivePending := false }) ∧
       (10 < p → p < 990 → good.cover c = { v with haltReason := some .derived, derivePending := false })) ∧
     (v.state = .halted → v.derivePending = true →
       (∀ q x, q ≠ .good → (s.positionTo c r q x).cover c = v) ∧ (s.positionTo c r .good none).cover c = v) ∧
     (v.moving = true → (∀ x, (s.positionTo c r .unknown x).cover c = v) ∧ (s.positionTo c r .good none).cover c = v) ∧
     (v.state = .closing → p < 990 → good.cover c = v) ∧ (v.state = .opening → 10 < p → good.cover c = v) ∧
     (∀ q x, v.moving = false → v.state ≠ .halted ∨ v.derivePending = false → (s.positionTo c r q x).cover c = v) ∧
     (∀ q x j, j ≠ c → (s.positionTo c r q x).cover j = s.cover j) ∧
     (let noticed (w : State) (event : Nat) : Prop :=
        s.upstream.length < 64 → hasNotice w .coverEvent c.val event (s.status r.position).value s.noticeSeq
      let stopped (w : State) : Prop := ∀ d, s.point r.drive = some d → d.role = .actuator .coverDrive → r.fan ≠ r.drive →
        (statusIn s.table r.drive).isSome = true →
        hasSet w r.drive (clampTo d.low d.high 0) .cover ∨ (w.status r.drive).resend = true
      (v.state = .closing → 990 ≤ p → noticed good 0 ∧ stopped good) ∧
      (v.state = .opening → p ≤ 10 → noticed good 1 ∧ stopped good) ∧
      (∀ q x, q = .stale ∨ q = .lost ∨ q = .suspect → v.moving = true →
        noticed (s.positionTo c r q x) 3 ∧ stopped (s.positionTo c r q x)) ∧
      (v.state = .halted → v.derivePending = true → (990 ≤ p → noticed good 0) ∧ (p ≤ 10 → noticed good 1) ∧
        (10 < p → p < 990 → good.upstream = s.upstream)) ∧
      ∀ q x, (s.positionTo c r q x).cover c = v → (s.positionTo c r q x).upstream = s.upstream) ∧
     ∀ q x,
       let w := s.positionTo c r q x
       w.zones = s.zones ∧ w.lamps = s.lamps ∧ w.supplies = s.supplies ∧ sameMode s w ∧ jobFrame s w ∧ sameStatuses s w ∧
         keepsNotices s w) ∧
  (∀ (v : Cover) (r : CoverRec) (p : PointStatus),
     let w := v.derived r p
     w.openPending = false ∧ w.valid = false ∧ w.runFailed = false ∧ w.confirmed = false ∧ w.travel = v.travel.stop ∧
     w.duration = v.duration.stop ∧ w.validity = v.validity.stop ∧
     ((p.quality = .unknown ∨ p.quality = .suspect ∨ p.quality = .lost) →
       w.state = .halted ∧ w.haltReason = some .derived ∧ w.derivePending = true ∧ w.purge = .idle ∧
         w.interval = v.interval.stop) ∧
     ((p.quality = .good ∨ p.quality = .stale) → w.derivePending = false ∧
       (990 ≤ p.value → w.state = .closed ∧ w.haltReason = none ∧ w.purge = .waiting ∧
         w.interval = v.interval.start r.interval) ∧
       (p.value ≤ 10 → w.state = .opened ∧ w.haltReason = none ∧ w.purge = .idle ∧ w.interval = v.interval.stop) ∧
       (10 < p.value → p.value < 990 → w.state = .halted ∧ w.haltReason = some .derived ∧ w.purge = .idle ∧
         w.interval = v.interval.stop)))

/-! ### Climate -/

/-- The stages of a zone evaluation: the usable points of a quantity and the least of their values; inputs clamped,
the dew point never above the air temperature and the flags that say so, the 41 entries of the saturation table, the
saturation pressure linear between them, and its inversion at them, between them, below the first and from the last
on; the starvation counts with plant-short, its condition and its notices; the dehumidification demand of each course;
the strategy; the heat-pump stage with its two thresholds, on above off; the setpoint from the mean water temperature,
with the night setback while every in-use cover of the zone is CLOSED, and without one; and the outputs (R82 to R84,
R87 to R91, R100, R101, R103 to R105, R108). That the water temperature used keeps its number while it is unusable is
the model's reading (log 33). -/
def Obligations.ClimateStages : Prop :=
  ((∀ (s : State) q z, s.contributors q z =
     ((s.points.filter fun d => decide (d.role = .sensor q ∧ d.zone = z)).map fun d => s.status d.id).filter fun p =>
       decide (p.quality = .good ∨ p.quality = .stale)) ∧
   leastOf [] = none ∧
   ∀ l : List PointStatus, l ≠ [] → ∃ m, leastOf l = some m ∧ (∃ p ∈ l, p.value = m) ∧ ∀ p ∈ l, m ≤ p.value) ∧
  ((∀ t rh : Int,
     let d := airStages t rh
     d.temp = clampTo (-2000) 6000 t ∧ d.rh = clampTo 0 1000 rh ∧ d.dew ≤ d.temp ∧ -2000 ≤ d.dew ∧
     (d.clamped = true ↔ t < -2000 ∨ 6000 < t) ∧
     (d.dewLow = true ↔ satPressure d.temp * d.rh.toNat / 1000 < 126) ∧ (d.dewLow = true → d.dew = -2000)) ∧
   (∀ k : Fin 41, satPressure (-2000 + 200 * (k.val : Int)) = sat k.val) ∧
   (∀ (k : Fin 40) (r : Fin 200), satPressure (-2000 + 200 * (k.val : Int) + r.val) =
     sat k.val + (sat (k.val + 1) - sat k.val) * r.val / 200) ∧
   (∀ k : Fin 40, sat k.val < sat (k.val + 1)) ∧
   (∀ k : Fin 41, dewOf (sat k.val) = -2000 + 200 * (k.val : Int)) ∧
   (∀ t rh : Int,
     let d := airStages t rh
     d.dew = min (dewOf (satPressure d.temp * d.rh.toNat / 1000)) d.temp) ∧
   (∀ pv : Nat, pv < 126 → dewOf pv = -2000) ∧
   (∀ (k : Fin 40) (pv : Nat), sat k.val ≤ pv → pv < sat (k.val + 1) →
     dewOf pv = -2000 + 200 * (k.val : Int) + (((pv - sat k.val) * 200 / (sat (k.val + 1) - sat k.val) : Nat) : Int)) ∧
   (∀ pv : Nat, 19946 ≤ pv → dewOf pv = 6000) ∧
   (List.range 41).map sat =
     [126, 149, 176, 208, 245, 287, 335, 391, 455, 528, 611, 706, 813, 935] ++
     [1073, 1228, 1403, 1599, 1818, 2064, 2339, 2645, 2985, 3363, 3782, 4246, 4759, 5324] ++
     [5947, 6632, 7384, 8208, 9110, 10095, 11171, 12352, 13631, 15022, 16532, 18171, 19946]) ∧
  (∀ (z : Fin 8) (s : State),
     let a := s.zone z
     let t := s.starvation z
     (a.grant < a.request →
       t.zone z = { a with
         starved := min (a.starved + 1) 3, unstarved := 0, plantShort := if 2 ≤ a.starved then true else a.plantShort } ∧
       (a.plantShort = false → 2 ≤ a.starved → t.latched.plantShort = true ∧
         (s.upstream.length < 64 → hasNotice t .plantShort z.val 1 a.request s.noticeSeq))) ∧
     (a.request ≤ a.grant →
       t.zone z = { a with
         unstarved := min (a.unstarved + 1) 3, starved := 0, plantShort := if 2 ≤ a.unstarved then false else a.plantShort } ∧
       (a.plantShort = true → 2 ≤ a.unstarved → s.upstream.length < 64 →
         hasNotice t .plantShort z.val 0 a.request s.noticeSeq)) ∧
     ∀ y, y ≠ z → t.zone y = s.zone y) ∧
  (∀ (r : ZoneRec) (v : Zone),
     let e1 := v.dew - r.dewLimit
     let e2 := (r.marginTarget : Int) - v.margin
     dehumDemand r .held v = r.fallback ∧
     dehumDemand r .dewOnly v = clampTo 0 1000 ((e1 * 1000).tdiv r.dehumBand) ∧
     (e2 ≤ e1 → dehumDemand r .full v = clampTo 0 1000 ((e1 * 1000).tdiv r.dehumBand)) ∧
     (e1 ≤ e2 → dehumDemand r .full v = clampTo 0 1000 ((e2 * 1000).tdiv r.dehumBand))) ∧
  ((∀ (r : ZoneRec) (w : Int) (night : Bool) (v : Zone), setpointStage r (some w) night v = { v with
      water := w, waterUsable := true, setpointValid := true
      setpoint := clampTo r.setMin r.setMax (w + r.waterOffset + v.trim - (if night then r.setback else 0)) }) ∧
   (∀ (r : ZoneRec) (night : Bool) (v : Zone),
      (v.setpointValid = true → setpointStage r none night v =
        { v with waterUsable := false, setpoint := clampTo r.setMin r.setMax v.setpoint }) ∧
      (v.setpointValid = false → setpointStage r none night v =
        { v with waterUsable := false, setpoint := (((r.setMin + r.setMax) / 2 : Nat) : Int) })) ∧
   meanOf [] = none ∧
   (∀ l : List PointStatus, l ≠ [] → meanOf l = some ((l.map PointStatus.value).sum.tdiv l.length)) ∧
   ∀ (s : State) z, s.coversClosed z = true ↔
     ∀ c r, s.coverRec c = some r → r.zone = z.val → (s.cover c).state = .closed) ∧
  (∀ (r : ZoneRec) (o : Outdoor) (v : Zone),
     (v.dehum = 0 → strategyOf r o v = .none) ∧
     (v.dehum ≠ 0 → o.usable = true ∧ o.dew ≤ r.dewLimit - r.approach ∧ v.plantShort = false →
       strategyOf r o v = .outdoorAir) ∧
     (v.dehum ≠ 0 → ¬ (o.usable = true ∧ o.dew ≤ r.dewLimit - r.approach ∧ v.plantShort = false) →
       strategyOf r o v = .heatPump)) ∧
  (∀ (r : ZoneRec) (v : Zone), r.hpOff < r.hpOn →
     (v.strategy = .heatPump → (r.hpOn : Int) ≤ v.dehum → hpStage r v = true) ∧
     (v.strategy = .heatPump → v.dehum ≤ r.hpOff → hpStage r v = false) ∧
     (v.strategy = .heatPump → (r.hpOff : Int) < v.dehum → v.dehum < r.hpOn → hpStage r v = v.hp) ∧
     (v.strategy ≠ .heatPump → hpStage r v = false)) ∧
  (∀ (r : ZoneRec) (night : Bool) (v : Zone),
     let o := outputsOf r night v
     let least : Int := max v.oaFloor (if v.occupied then r.occupiedOa else 0)
     (r.weight = 0 → o.valve = 0) ∧
     (r.weight ≠ 0 → o.valve = clampTo 0 1000 (v.grant * 1000 / r.weight : Nat)) ∧
     (v.strategy = .outdoorAir → o.oa = max least v.dehum) ∧ (v.strategy ≠ .outdoorAir → o.oa = least) ∧
     o.fan = max (max (if night then (r.nightFan : Int) else r.dayFan) v.fanFloor) (if 0 < v.dehum then r.dehumFan else 0) ∧
     o.stage = if v.hp then 1 else 0)

/-- The evaluation timer of an in-use zone outside DORMANT reloads and the zone is evaluated: its moisture fields are
those of the course of R86 on the means and the least surface temperature, DEGRADED follows the STALE points, and the
outdoor record is computed or its usable flag cleared; heat and dehumidification demands and the heat pump are those
of its stages, the starvation counts and plant-short follow the grant and request of before, a risk flag set latches
CONDENSATION and queues CONDENSATION_SET, one cleared CONDENSATION_CLEAR, and plant-short likewise, where there is
room; the setpoint follows the water temperature, the trim and the night setback, the request is R107's and lies in
0..W (where the demand held over from before lies in 0..1000), every grant is the pass's; an output is sent to a point
of its kind when none was sent before, when it moved by 10 or more (the stage: at all), at a refresh, or when the
point is marked for resend or was never commanded, the SETs placed or marked for resend, and is then the output last
sent; nothing else is submitted; the other zones keep everything but their grants. In DORMANT, and for a zone not in
use, the expiry only reloads the timer (R82 to R86, R92 to R94, R98 to R109). The deliveries to the Mode Controller
follow. A timer that is not due does not expire (log 3). The water temperature keeps its number while it is unusable
(log 33). An evaluation at once is that evaluation with the timer started afresh (R98). -/
def Obligations.EvaluationRunsItsStages : Prop :=
  (∀ (z : Fin 8) s,
     (s.timerDue (.evaluation z) = false → exec (.evaluationTimerExpiry z) s = .next s) ∧
     (s.timerDue (.evaluation z) = true → s.mode = some .dormant ∨ s.zoneRec z = none →
       exec (.evaluationTimerExpiry z) s =
         .next (s.setZone z { s.zone z with evalTimer := (s.zone z).evalTimer.expireContinuous })) ∧
     ∀ r, s.timerDue (.evaluation z) = true → s.mode ≠ some .dormant → s.zoneRec z = some r → z ∈ s.priority →
       s.priority.Nodup →
       let outdoors := [(Quantity.outdoorTemp), .outdoorRh]
       let outT := meanOf (s.contributors .outdoorTemp none)
       let outH := meanOf (s.contributors .outdoorRh none)
       ∃ t u : State, exec (.evaluationTimerExpiry z) s = .next t ∧ t = settle s u ∧
         u = (s.setZone z { s.zone z with evalTimer := (s.zone z).evalTimer.expireContinuous }).evaluate z ∧
         let a := s.zone z
         let v := u.zone z
         let o := outputsOf r (decide (s.mode = some .night)) v
         v.evalTimer = a.evalTimer.expireContinuous ∧ v.holdTimer = a.holdTimer ∧ v.occupied = a.occupied ∧
         v.oaFloor = a.oaFloor ∧ v.fanFloor = a.fanFloor ∧
         s.moistureFormed z (s.staleAmong (some z) [.airTemp, .airRh, .waterTemp, .surfaceTemp] ∨ s.staleAmong none outdoors)
           a v ∧
         (outT = none ∨ outH = none → u.outdoor = { s.outdoor with usable := false }) ∧
         (∀ x y, outT = some x → outH = some y →
           let d := airStages x y
           u.outdoor =
             { usable := true, temp := d.temp, rh := d.rh, dew := d.dew, rangeT := d.clamped, dewLow := d.dewLow }) ∧
         v.dehum = dehumDemand r (s.course z) v ∧ v.strategy = strategyOf r u.outdoor v ∧
         v.hp = hpStage r { v with hp := a.hp } ∧
         (s.course z = .full → v.risk = if a.risk = false ∧ v.margin < 0 then true
           else if a.risk = true ∧ (r.marginTarget : Int) ≤ v.margin then false else a.risk) ∧
         (s.course z ≠ .full → v.risk = a.risk) ∧
         (let sets := s.course z = .full ∧ a.risk = false ∧ v.margin < 0
          let clears := s.course z = .full ∧ a.risk = true ∧ (r.marginTarget : Int) ≤ v.margin
          let short := a.plantShort = false ∧ a.grant < a.request ∧ 2 ≤ a.starved
          let regained := a.plantShort = true ∧ a.request ≤ a.grant ∧ 2 ≤ a.unstarved
          (sets → s.upstream.length < 63 → ∃ n, hasNotice t .condensationSet z.val v.margin v.dew n) ∧
          (clears → s.upstream.length < 63 → ∃ n, hasNotice t .condensationClear z.val v.margin v.dew n) ∧
          (short → s.upstream.length < 64 → hasNotice t .plantShort z.val 1 a.request s.noticeSeq) ∧
          (regained → s.upstream.length < 64 → hasNotice t .plantShort z.val 0 a.request s.noticeSeq) ∧
          (∀ e ∈ u.upstream, e ∈ s.upstream ∨ ∃ n,
            (sets ∧ e = .notice ⟨.condensationSet, z.val, v.margin, v.dew, n⟩) ∨
            (clears ∧ e = .notice ⟨.condensationClear, z.val, v.margin, v.dew, n⟩) ∨
            (short ∧ e = .notice ⟨.plantShort, z.val, 1, a.request, n⟩) ∨
            (regained ∧ e = .notice ⟨.plantShort, z.val, 0, a.request, n⟩)) ∧
          (u.latched.condensation = true ↔ s.latched.condensation = true ∨ sets) ∧
          (u.latched.plantShort = true ↔ s.latched.plantShort = true ∨ short) ∧
          u.latched = { s.latched with
            condensation := u.latched.condensation, plantShort := u.latched.plantShort
            queueOverrun := u.latched.queueOverrun }) ∧
         (a.grant < a.request → v.starved = min (a.starved + 1) 3 ∧ v.unstarved = 0 ∧
           v.plantShort = if 2 ≤ a.starved then true else a.plantShort) ∧
         (a.request ≤ a.grant → v.starved = 0 ∧ v.unstarved = min (a.unstarved + 1) 3 ∧
           v.plantShort = if 2 ≤ a.unstarved then false else a.plantShort) ∧
         (∀ w, meanOf (s.waterPoints z) = some w → v.water = w ∧ v.waterUsable = true ∧ v.setpointValid = true ∧
           v.setpoint = clampTo r.setMin r.setMax (w + r.waterOffset + a.trim -
             (if s.mode = some .night ∧ s.coversClosed z = true then r.setback else 0))) ∧
         (meanOf (s.waterPoints z) = none → v.water = a.water ∧ v.waterUsable = false ∧
           v.setpointValid = a.setpointValid ∧ v.setpoint =
             if a.setpointValid = true then clampTo r.setMin r.setMax a.setpoint
             else (((r.setMin + r.setMax) / 2 : Nat) : Int)) ∧
         (s.course z ≠ .held → v.lampLoad = s.lampLoad z ∧
           v.heat = clampTo 0 1000
             (((v.setpoint - v.air - (s.lampLoad z * r.lampGain).tdiv 1000) * 1000).tdiv r.heatBand)) ∧
         (s.course z = .held → v.heat = a.heat ∧ v.lampLoad = a.lampLoad) ∧
         v.request = ((v.heat * r.weight).tdiv 1000 - (if v.hp then (r.credit : Int) else 0)).toNat ∧
         (s.course z ≠ .held ∨ (0 ≤ a.heat ∧ a.heat ≤ 1000) → v.request ≤ r.weight) ∧
         (∀ pre y post, s.priority = pre ++ y :: post → (u.zone y).grant =
           min (u.zone y).request (s.effectiveCapacity - (pre.map fun x => (u.zone x).grant).sum)) ∧
         (let outputs := [(ActKind.heatValve, o.valve), (.oaDamper, o.oa), (.supplyFan, o.fan), (.dehumStage, o.stage)]
          let drives (k : ActKind) (d : PointDef) : Prop :=
            d.role = .actuator k ∧ d.owner = some .climate ∧ d.zone = some z
          let calls (k : ActKind) (x : Int) (d : PointDef) : Prop :=
            a.lastSent k = none ∨ (∃ l, a.lastSent k = some l ∧ (if k = .dehumStage then x ≠ l else 10 ≤ (x - l).natAbs)) ∨
              6 ≤ a.refresh + 1 ∨ (s.status d.id).resend = true ∨ (s.status d.id).commanded = none
          (s.points.map (·.id)).Nodup →
            (∀ p ∈ outputs,
              ((∃ d ∈ s.points, drives p.1 d ∧ calls p.1 p.2 d) → v.lastSent p.1 = some p.2) ∧
              (¬ (∃ d ∈ s.points, drives p.1 d ∧ calls p.1 p.2 d) → v.lastSent p.1 = a.lastSent p.1) ∧
              ∀ d ∈ s.points, drives p.1 d →
                (calls p.1 p.2 d → (statusIn s.table d.id).isSome = true →
                  hasSet u d.id (clampTo d.low d.high p.2) .climate ∨ (u.status d.id).resend = true) ∧
                (¬ calls p.1 p.2 d → u.status d.id = s.status d.id ∧
                  ∀ e ∈ (u.segment (pointSeg d.id)).queue, e.point = d.id → e ∈ (s.segment (pointSeg d.id)).queue)) ∧
            ∀ g, ∀ e ∈ (u.segment g).queue, e ∈ (s.segment g).queue ∨
              ∃ p ∈ outputs, ∃ d ∈ s.points, drives p.1 d ∧ calls p.1 p.2 d ∧ e.point = d.id ∧
                e.value = clampTo d.low d.high p.2 ∧ e.origin = .climate) ∧
         v.refresh = (if 6 ≤ a.refresh + 1 then 0 else a.refresh + 1) ∧
         (∀ y, y ≠ z → u.zone y = { s.zone y with grant := (u.zone y).grant }) ∧
         u.covers = s.covers ∧ u.lamps = s.lamps ∧ u.supplies = s.supplies ∧ sameMode s u ∧ jobFrame s t ∧
         sameStatuses s t ∧ keepsNotices s t) ∧
  (∀ (z : Fin 8) (s : State),
     (s.zoneRec z = none → s.evaluate z = s ∧ s.evaluateNow z = s) ∧
     ∀ r, s.zoneRec z = some r →
       let u := s.evaluate z
       s.evaluateNow z = u.setZone z { u.zone z with evalTimer := (u.zone z).evalTimer.start ⟨1, r.period⟩ })

/-- The occupancy hold of a zone ends and the flag is examined: occupied while the zone is in use and an OCCUPANCY
point of it is not GOOD, and otherwise not; a flag newly set halts every CLOSING in-use cover of the zone for
OCCUPIED, with its drive submitted SET 0 and its event queued where there is room, and no other cover. A timer that is
not due does not expire (log 3). The dormant watch, due, reloads and makes the watch evaluation of every in-use zone,
whatever the mode (log 4), which writes the moisture fields by the course of R86 and the risk flags: a flag set
latches CONDENSATION and queues CONDENSATION_SET, one cleared queues CONDENSATION_CLEAR, where there is room; no
outdoor record, demand, output or SET is written; the deliveries follow; a watch that was stopped has no expiry (R77,
R78, R82 to R86, R94, R102, R111, R112, R114, R128, R172). -/
def Obligations.HoldAndWatchExpiries : Prop :=
  (∀ (z : Fin 8) s,
     (s.timerDue (.occupancyHold z) = false → exec (.occupancyHoldExpiry z) s = .next s) ∧
     (s.timerDue (.occupancyHold z) = true →
       let now := (s.zoneRec z).isSome &&
         s.points.any fun d => decide (d.role = .sensor .occupancy ∧ d.zone = some z ∧ (s.status d.id).quality ≠ .good)
       let w := { s.zone z with holdTimer := (s.zone z).holdTimer.expireSingle, occupied := now }
       ((now = false ∨ (s.zone z).occupied = true) →
         exec (.occupancyHoldExpiry z) s = .next (s.setZone z w)) ∧
       (now = true → (s.zone z).occupied = false →
         exec (.occupancyHoldExpiry z) s = .next (settle s ((s.setZone z w).occupiedCovers z))))) ∧
  (∀ (z : Fin 8) (s : State),
     let t := s.occupiedCovers z
     (∀ c r, s.coverRec c = some r → r.zone = z.val → (s.cover c).state = .closing →
       t.cover c = { s.cover c with
         state := .halted, haltReason := some .occupied, travel := (s.cover c).travel.stop } ∧
       (s.upstream.length < 58 → ∃ n, hasNotice t .coverEvent c.val 4 (s.status r.position).value n) ∧
       (∀ d, s.point r.drive = some d → d.role = .actuator .coverDrive →
         (∀ j q, s.coverRec j = some q → q.fan ≠ r.drive ∧ (j ≠ c → q.drive ≠ r.drive)) →
         (statusIn s.table r.drive).isSome = true →
         hasSet t r.drive (clampTo d.low d.high 0) .cover ∨ (t.status r.drive).resend = true)) ∧
     (∀ c, (s.cover c).state ≠ .closing ∨ (∀ r, s.coverRec c = some r → r.zone ≠ z.val) → t.cover c = s.cover c) ∧
     t.zones = s.zones ∧ t.lamps = s.lamps ∧ t.supplies = s.supplies ∧ sameMode s t ∧ jobFrame s t ∧ sameStatuses s t ∧
     keepsNotices s t) ∧
  (∀ s,
     (s.timerDue .dormantWatch = false → exec .dormantWatchExpiry s = .next s) ∧
     (s.timerDue .dormantWatch = true → exec .dormantWatchExpiry s =
       .next (settle s ({ s with watch := s.watch.expireContinuous }.watchEvaluations))) ∧
     let u := s.watchEvaluations
     (∀ z, u.zone z = { s.zone z with
       air := (u.zone z).air, rh := (u.zone z).rh, dew := (u.zone z).dew, margin := (u.zone z).margin
       marginValid := (u.zone z).marginValid, degraded := (u.zone z).degraded, rangeT := (u.zone z).rangeT
       dewLow := (u.zone z).dewLow, risk := (u.zone z).risk }) ∧
     (∀ z, (s.zoneRec z).isNone = true → u.zone z = s.zone z) ∧
     (∀ z, (s.zoneRec z).isSome = true →
       s.moistureFormed z (s.staleAmong (some z) [.airTemp, .airRh, .surfaceTemp]) (s.zone z) (u.zone z)) ∧
     (∀ z r, s.zoneRec z = some r → s.course z = .full →
       (u.zone z).risk = if (s.zone z).risk = false ∧ (u.zone z).margin < 0 then true
         else if (s.zone z).risk = true ∧ (r.marginTarget : Int) ≤ (u.zone z).margin then false else (s.zone z).risk) ∧
     (∀ z, s.course z ≠ .full → (u.zone z).risk = (s.zone z).risk) ∧
     (let sets (z : Fin 8) : Prop := (s.zoneRec z).isSome = true ∧ (s.zone z).risk = false ∧ (u.zone z).risk = true
      let clears (z : Fin 8) : Prop := (s.zoneRec z).isSome = true ∧ (s.zone z).risk = true ∧ (u.zone z).risk = false
      (∀ z, s.upstream.length < 57 →
        (sets z → ∃ n, hasNotice u .condensationSet z.val (u.zone z).margin (u.zone z).dew n) ∧
        (clears z → ∃ n, hasNotice u .condensationClear z.val (u.zone z).margin (u.zone z).dew n)) ∧
      (∀ e ∈ u.upstream, e ∈ s.upstream ∨ ∃ z n,
        (sets z ∧ e = .notice ⟨.condensationSet, z.val, (u.zone z).margin, (u.zone z).dew, n⟩) ∨
        (clears z ∧ e = .notice ⟨.condensationClear, z.val, (u.zone z).margin, (u.zone z).dew, n⟩)) ∧
      (u.latched.condensation = true ↔ s.latched.condensation = true ∨ ∃ z, sets z)) ∧
     u.latched = { s.latched with condensation := u.latched.condensation, queueOverrun := u.latched.queueOverrun } ∧
     (∀ id, u.status id = { s.status id with missed := (u.status id).missed }) ∧
     u = { s with
       zones := u.zones, latched := u.latched, upstream := u.upstream, noticeSeq := u.noticeSeq, overrun := u.overrun
       table := u.table } ∧ keepsNotices s u)

/-- What follows an event's own effects: in DORMANT a purge run started, a risk flag set or an EVACUATE latch set
turns the hall to NIGHT with dormant-pending set; with dormant-pending set, a blocker cleared and none left, the hall
goes DORMANT; nothing else follows (R170, R171). That the states before and after the event are compared, and the wake
comes first, is the model's reading (log 16). A change out of DORMANT stops the watch, is noticed, evaluates every
in-use zone in ascending number and retargets every lamp; a change into it starts the watch, is noticed, and delivers
the entry, at which each in-use zone stops its evaluations with its request 0, its heat pump off and its outputs last
sent 0, SET 0 is placed for each of its CLIMATE-owned output points or the point is marked for resend, an allocation
pass runs, and nothing else is submitted (R113, R115, R164, R168; log 17). -/
def Obligations.DeliveriesWakeOrRecheck : Prop :=
  (∀ before after : State,
     let purged := ∃ c, (after.cover c).purging = true ∧ (before.cover c).purging = false
     let risen := ∃ z, (after.zoneRec z).isSome = true ∧ (after.zone z).risk = true ∧ (before.zone z).risk = false
     let evacuated := after.evacuating = true ∧ before.evacuating = false
     let clearedOne := (∃ c, ((before.cover c).purging = true ∧ (after.cover c).purging = false) ∨
         ((before.cover c).moving = true ∧ (after.cover c).moving = false)) ∨
       (∃ z, (before.zone z).risk = true ∧ (after.zone z).risk = false) ∨
       (before.evacuating = true ∧ after.evacuating = false)
     (after.mode = some .dormant → purged ∨ risen ∨ evacuated →
       wake before after =
         { after with dormantPending := true }.changeMode .night (if purged then 3 else if risen then 2 else 4) ∧
       (wake before after).mode = some .night ∧ (wake before after).dormantPending = true) ∧
     (after.mode ≠ some .dormant ∨ ¬ (purged ∨ risen ∨ evacuated) → wake before after = after) ∧
     (after.dormantPending = true → clearedOne → after.blocker = none →
       recheck before after = after.enterDormant 1 ∧ (recheck before after).mode = some .dormant) ∧
     (after.dormantPending = false ∨ ¬ clearedOne ∨ after.blocker ≠ none → recheck before after = after) ∧
     settle before after = recheck before (wake before after) ∧
     (∀ (s : State) m cause, s.mode = some .dormant → m ≠ .dormant →
       s.changeMode m cause = (forEach allZones State.evaluateNow
         ({ s with mode := some m, watch := s.watch.stop }.notice .modeChanged cause m.code 3)).retargetAll) ∧
     ∀ (s : State) cause, s.mode ≠ some .dormant →
       s.enterDormant cause = ({ s with
         mode := some .dormant, dormantPending := false, watch := s.watch.start s.hall.watch }.notice .modeChanged cause 3
           (match s.mode with | some m => (m.code : Int) | none => -1)).climateSleep.retargetAll) ∧
  (∀ s : State,
     let t := s.climateSleep
     (∀ z, (s.zoneRec z).isSome = true → t.zone z = { s.zone z with
       evalTimer := (s.zone z).evalTimer.stop, request := 0, hp := false, grant := (t.zone z).grant
       lastValve := some 0, lastOa := some 0, lastFan := some 0, lastStage := some 0 } ∧
       (z ∈ s.priority → (t.zone z).grant = 0)) ∧
     (∀ z, (s.zoneRec z).isSome = false → t.zone z = { s.zone z with grant := (t.zone z).grant }) ∧
     ((s.points.map (·.id)).Nodup →
       (∀ d ∈ s.points, ∀ z, climateOutput z d → (s.zoneRec z).isSome = true → (statusIn s.table d.id).isSome = true →
         hasSet t d.id (clampTo d.low d.high 0) .climate ∨ (t.status d.id).resend = true) ∧
       ∀ g, ∀ e ∈ (t.segment g).queue, e ∈ (s.segment g).queue ∨
         ∃ d ∈ s.points, ∃ z, climateOutput z d ∧ (s.zoneRec z).isSome = true ∧ e.point = d.id ∧
           e.value = clampTo d.low d.high 0 ∧ e.origin = .climate) ∧
     sameLink s t ∧ sameStatuses s t ∧ t = { s with zones := t.zones, segs := t.segs, clamps := t.clamps, table := t.table })

/-! ### Time -/

/-- A base tick that finds its timer due is that timer's expiry, and another lowers the remaining time of a running
timer by one and changes nothing else: of a pending echo its timer alone. A start gives prescale × count ticks, a
start with prescale 0 and a stop end the timer, a NON_RETRIGGERABLE start leaves a running one, and an expiry ends a
SINGLE timer and reloads a CONTINUOUS one (R74 to R78, R81; log 3). -/
def Obligations.TimersStartTickAndExpire : Prop :=
  (∀ (k : TimerId) s, s.timerDue k = true → exec (.timerCountTick k) s =
    match k with
    | .evaluation z => exec (.evaluationTimerExpiry z) s
    | .occupancyHold z => exec (.occupancyHoldExpiry z) s
    | .supplyOffDelay z => exec (.supplyOffDelayExpiry z) s
    | .travel c => exec (.travelTimerExpiry c) s
    | .purgeInterval c => exec (.purgeIntervalExpiry c) s
    | .purgeDuration c => exec (.purgeDurationExpiry c) s
    | .validity c => exec (.validityExpiry c) s
    | .cueHold src => exec (.cueHoldExpiry src) s
    | .dormantWatch => exec .dormantWatchExpiry s
    | .trunkSilence => exec .trunkSilenceExpiry s
    | .echo p => exec (.echoMiss p) s) ∧
  (∀ (k : TimerId) s, ∃ t : State, exec (.timerCountTick k) s = .next t ∧ (s.timerDue k = false →
    t.timer k = (s.timer k).map Timer.tick ∧ (∀ j, j ≠ k → t.timer j = s.timer j) ∧
    t = { s with
      zones := t.zones, covers := t.covers, supplies := t.supplies, sourceA := t.sourceA, sourceB := t.sourceB
      watch := t.watch, silence := t.silence, echoes := t.echoes } ∧
    (∀ z, t.zone z = { s.zone z with evalTimer := (t.zone z).evalTimer, holdTimer := (t.zone z).holdTimer }) ∧
    (∀ c, t.cover c =
      { s.cover c with
        travel := (t.cover c).travel, interval := (t.cover c).interval, duration := (t.cover c).duration
        validity := (t.cover c).validity }) ∧
    (∀ src, (t.source src).playing = (s.source src).playing) ∧
    t.echoes.map (fun e => { e with timer := Timer.idle }) = s.echoes.map (fun e => { e with timer := Timer.idle }) ∧
    ∀ z, (t.supply z).map (fun m => (m.state, m.awaiting)) = (s.supply z).map fun m => (m.state, m.awaiting))) ∧
  (∀ v : Timer, v.running = false → v.tick = v ∧ v.remaining = 0 ∧ v.due = false ∧ v.stop = v) ∧
  (∀ v : Timer, v.running = true → 1 ≤ v.prescaler → v.prescaler ≤ v.prescale → 1 ≤ v.count →
    v.remaining = (v.count - 1) * v.prescale + v.prescaler ∧ (v.due = true ↔ v.remaining = 1) ∧
    (v.due = false → v.tick.running = true ∧ v.tick.remaining + 1 = v.remaining ∧ v.tick.prescale = v.prescale ∧
      v.tick.setting = v.setting ∧ 1 ≤ v.tick.prescaler ∧ v.tick.prescaler ≤ v.prescale ∧ 1 ≤ v.tick.count)) ∧
  ∀ (v : Timer) (p : Pair),
    (p.prescale = 0 → (v.start p).running = false ∧ (v.startOnce p).running = false) ∧
    (1 ≤ p.prescale → 1 ≤ p.count → (v.start p).running = true ∧ (v.start p).remaining = p.prescale * p.count) ∧
    (v.running = true → 1 ≤ p.prescale → v.startOnce p = v) ∧ (v.running = false → v.startOnce p = v.start p) ∧
    v.stop.running = false ∧ v.stop.remaining = 0 ∧ v.expireSingle.running = false ∧ v.expireSingle.remaining = 0 ∧
    (v.running = true → 1 ≤ v.prescale → 1 ≤ v.setting →
      v.expireContinuous.running = true ∧ v.expireContinuous.remaining = v.prescale * v.setting)

/-- The aging sweep while a bank is active: the age of a GOOD, SUSPECT or STALE record rises, a GOOD record over its
limit is STALE, a sensor's forward age rises, and nothing of another record changes; a moving cover whose position
goes STALE halts for SENSOR; an OCCUPANCY point that goes STALE makes its in-use zone occupied, and a flag newly set
halts the zone's CLOSING covers for OCCUPIED; a CLOSING cover with both causes halts for one of them (logs 15, 62). A
halt has its event and the drive's SET 0. Without an active bank the sweep does nothing (R19, R20, R53, R54, R111,
R128). -/
def Obligations.AgingSweepAgesTheRecords : Prop :=
  (∀ s, s.active = none → exec .agingSweep s = .next s) ∧
  ∀ s, s.active ≠ none → ∃ t : State, exec .agingSweep s = .next t ∧
    (∀ id d, s.point id = some d → (statusIn s.table id).isSome = true →
      let a := s.status id
      let ages := a.quality = .good ∨ a.quality = .suspect ∨ a.quality = .stale
      let age := if ages then min (a.age + 1) 65535 else a.age
      t.status id = { a with
        age := age, quality := if a.quality = .good ∧ d.stale < age then .stale else a.quality
        forwardAge := if d.isSensor then min (a.forwardAge + 1) 65535 else a.forwardAge
        resend := (t.status id).resend, missed := (t.status id).missed }) ∧
    (∀ id, s.point id = none → t.status id =
      { s.status id with resend := (t.status id).resend, missed := (t.status id).missed }) ∧
    (∀ id d c r, s.point id = some d → d.role = .sensor .coverPosition → (statusIn s.table id).isSome = true →
      (s.status id).quality = .good → d.stale < min ((s.status id).age + 1) 65535 →
      s.coverAtPosition id = some (c, r) → (s.cover c).moving = true →
      (haltedFor s t c r .sensor 3 ∨ haltedFor s t c r .occupied 4) ∧
      ((s.cover c).state = .opening ∨ (t.zone r.zoneNo).occupied = (s.zone r.zoneNo).occupied →
        haltedFor s t c r .sensor 3)) ∧
    (∀ id d z, s.point id = some d → d.role = .sensor .occupancy → d.zone = some z → (s.zoneRec z).isSome = true →
      (statusIn s.table id).isSome = true → (s.status id).quality = .good →
      d.stale < min ((s.status id).age + 1) 65535 → (t.zone z).occupied = true ∧
      ((s.zone z).occupied = false → ∀ c r, s.coverRec c = some r → r.zone = z.val → (s.cover c).state = .closing →
        (haltedFor s t c r .sensor 3 ∨ haltedFor s t c r .occupied 4) ∧
        ((t.status r.position).quality = (s.status r.position).quality → haltedFor s t c r .occupied 4))) ∧
    jobFrame s t ∧ keepsNotices s t

/-- The expiry of a pending entry's echo timer: the entry goes; an actuator's record counts the miss and is LOST at
the third, with POINT_LOST where there is room; a job's point is left marked for resend, or its SET has been placed
again; on a running purge's fan the run fails when the cover sent it; the last awaited point of a POWERING supply
releases it with its deferred lamps. Nothing but the entry goes for another identity. A timer that is not due does not
expire (R61, R66, R132, R158; log 3). -/
def Obligations.EchoMissRemovesAndCounts : Prop :=
  ∀ id s,
    (s.timerDue (.echo id) = false → exec (.echoMiss id) s = .next s) ∧
    (s.timerDue (.echo id) = true → s.actuatorAt id = none →
      exec (.echoMiss id) s = .next { s with echoes := s.echoes.filter fun x => x.point ≠ id }) ∧
    ∀ e d, s.timerDue (.echo id) = true → (s.echoes.find? fun x => decide (x.point = id)) = some e → s.point id = some d →
      d.isActuator = true → ∃ t : State, exec (.echoMiss id) s = .next t ∧
        t.echoes = s.echoes.filter (fun x => x.point ≠ id) ∧
        ((statusIn s.table id).isSome = true → t.status id = { s.status id with
          misses := min ((s.status id).misses + 1) 3
          quality := if (s.status id).misses = 2 then .lost else (s.status id).quality
          resend := (t.status id).resend, missed := (t.status id).missed }) ∧
        ((s.status id).misses = 2 → s.upstream.length < 64 →
          hasNotice t .pointLost (id.seg * 512 + id.node * 16 + id.chan) 3 e.value s.noticeSeq) ∧
        (∀ c r, d.owner = some .cover → s.coverAtFan id = some (c, r) → (s.cover c).purging = true → e.origin = .cover →
          (t.cover c).runFailed = true) ∧
        (e.origin ≠ .station → (statusIn s.table id).isSome = true →
          (t.status id).resend = true ∨ ∃ f ∈ (t.segment (pointSeg id)).queue, f.point = id ∧ f.origin ≠ .station) ∧
        (∀ z m, d.owner = some .lighting → d.role = .actuator .lampSupply → d.zone = some z → s.supply z = some m →
          m.state = .powering → id ∈ m.awaiting → (∀ y ∈ m.awaiting, y = id) → e.origin = .lighting →
          t.supplyState z =
            some (if s.demand z = true ∨ ∃ i, (s.input i).latch = some .evacuate then .on else .stopping) ∧
          ∀ i c l, s.point i = some c → c.zone = some z → s.lamp i = some l → l.deferred = true →
            t.lamp i = some { l with deferred := false, elapsed := 0 } ∧
            (c.role = .actuator .lamp → (s.points.map (·.id)).Nodup → (statusIn s.table i).isSome = true →
              hasSet t i (clampTo c.low c.high l.target) .lighting ∨ (t.status i).resend = true)) ∧
        (∀ j, j ≠ id → t.status j = { s.status j with resend := (t.status j).resend, missed := (t.status j).missed }) ∧
        sameStation s t ∧ sameRun s t ∧ sameSources s t ∧ samePlant s t ∧ sameLink s t ∧ sameTrims s t ∧
        t.inputs = s.inputs ∧ keepsNotices s t

/-! ### The field link -/

/-- The poll a segment makes next: the lowest PRESENT address from its place in the round on; past the last, the next
round begins, and at every fourth round end the first address from the roll-call pointer that is not PRESENT is
called. A poll is made when it is the segment's next and no exchange is open, and a poll command out of its turn does
nothing (R28; log 12). The channel field of the POLL is 0 by choice (log 43). -/
def Obligations.PollsGoRoundAndCallTheRoll : Prop :=
  ∀ (seg : Fin 4) s,
    let g := s.segment seg
    let present (n : Fin 31) : Prop := g.nodes[n].state = .present
    let poll (n : Fin 31) (call : Bool) (counter : Fin 4) (pos : Nat) (pointer : Fin 31) : State :=
      s.setSegment seg { g with
        roundCounter := counter, roundPos := pos, rollCall := pointer
        exchange := some { node := n, rollCall := call, answered := false, frames := 0, helloSeen := false }
        lastFrame := some
          { addr := 0, kind := 0x40, seg := BitVec.ofNat 4 seg.val, service := false, more := false
            node := byteOf n.val, chan := 0, seq := 0, payload := [] } }
    let inTurn (call : Bool) (t : State) : Prop :=
      exec (.segmentPoll seg) s = .next (if call then s else t) ∧ exec (.rollCallPoll seg) s = .next (if call then t else s)
    let ended := ∀ m : Fin 31, present m → m.val < g.roundPos
    (g.exchange ≠ none → exec (.segmentPoll seg) s = .next s ∧ exec (.rollCallPoll seg) s = .next s) ∧
    (g.exchange = none →
      (∀ n, present n → g.roundPos ≤ n.val → (∀ m, present m → g.roundPos ≤ m.val → n ≤ m) →
        inTurn false (poll n false g.roundCounter (n.val + 1) g.rollCall)) ∧
      (∀ i : Fin 31, ended → g.roundCounter = 3 → ¬ present (g.rollCall + i) → (∀ j < i, present (g.rollCall + j)) →
        inTurn true (poll (g.rollCall + i) true 0 0 (g.rollCall + i + 1))) ∧
      (∀ n, ended → g.roundCounter ≠ 3 → present n → (∀ m, present m → n ≤ m) →
        inTurn false (poll n false (g.roundCounter + 1) (n.val + 1) g.rollCall)) ∧
      ((∀ m, ¬ present m) → inTurn true (poll g.rollCall true 0 0 (g.rollCall + 1))) ∧
      (ended → g.roundCounter = 3 → (∀ m, present m) → inTurn false (poll 0 false 0 1 g.rollCall)))

/-- A SAMPLE in an answer: before the HELLO of a roll-call answer it is dropped; an unlisted identity and an actuator
are only forwarded; a sensor's is judged (status, negative RH, envelope; RH clamped to 1000), written, forwarded by
the point's policy and delivered: a GOOD occupied sample starts the zone's hold, and with a change of quality (to
SUSPECT, or to GOOD) has the zone's flag examined: occupied while the hold runs or an OCCUPANCY point is not GOOD, and
a flag newly set halts the CLOSING covers of the zone for OCCUPIED; a position sample goes to its cover, and one
judged SUSPECT halts a moving cover for SENSOR; a halt has its event and the drive's SET 0 (R20, R30, R36, R41 to R47,
R53, R54, R111, R128). That NONE keeps a sample after an eviction too is the model's choice (log 44). -/
def Obligations.SampleIsJudgedForwardedAndDelivered : Prop :=
  (∀ (seg : Fin 4) (node chan seq : Byte) (v : Int) (b : Byte) s x,
    (s.segment seg).exchange = some x → node.toNat = x.node.val → x.frames < 4 →
    let t := s.setSegment seg
      { s.segment seg with exchange := some { x with answered := true, frames := x.frames + 1 } }
    let id : PointId := ⟨seg.val, node.toNat, chan.toNat⟩
    let a := s.status id
    (x.rollCall = true ∧ x.helloSeen = false → exec (.sample seg node chan seq v b) s = .next t) ∧
    (x.rollCall = false ∨ x.helloSeen = true →
      (s.point id = none →
        exec (.sample seg node chan seq v b) s = .next (t.offerSample id seq v b .unlisted).1) ∧
      (∀ d, s.point id = some d → d.isSensor = false →
        exec (.sample seg node chan seq v b) s = .next (t.offerSample id seq v b .notSensor).1) ∧
      ∀ d, s.point id = some d → d.isSensor = true →
        let rh := d.role = .sensor .airRh ∨ d.role = .sensor .outdoorRh
        let j := if rh ∧ 1000 < v then 1000 else v
        let q : QualityByte := if b ≠ 0 then .suspectStatus else if rh ∧ v < 0 then .suspectRange
          else if j < d.low ∨ d.high < j then .suspectRange else .good
        let forced := a.missed = true ∨ a.quality = .unknown ∨ a.quality = .lost
        let due : Prop := match d.policy with
          | .all => True
          | .none => False
          | .everyN => forced ∨ d.n ≤ a.counter + 1
          | .onChange => forced ∨ d.delta ≤ (j - a.forwarded).natAbs ∨ d.stale ≤ a.forwardAge
        let fits := s.upstream.length < 64 ∨ ∃ e ∈ s.upstream, e.sampleId = some id
        ∃ u : State, exec (.sample seg node chan seq v b) s = .next u ∧
          ((statusIn s.table id).isSome = true →
            (u.status id).quality = (if q = .good then .good else .suspect) ∧
            (u.status id).value = (if q = .good then j else a.value) ∧
            (u.status id).age = (if q = .good then 0 else a.age) ∧
            (d.policy = .everyN → (due → (u.status id).counter = 0) ∧ (¬ due → (u.status id).counter = a.counter + 1)) ∧
            (d.policy ≠ .everyN → (u.status id).counter = a.counter) ∧
            (due → fits → (u.status id).forwarded = j ∧ (u.status id).forwardAge = 0) ∧
            (due → ¬ fits → (u.status id).missed = true) ∧
            (¬ due ∨ ¬ fits → (u.status id).forwarded = a.forwarded ∧ (u.status id).forwardAge = a.forwardAge)) ∧
          (d.role ≠ .sensor .occupancy → d.role ≠ .sensor .coverPosition →
            (due → u.upstream = (s.offerSample id seq v b q).1.upstream) ∧ (¬ due → u.upstream = s.upstream) ∧
            u = { t with upstream := u.upstream, table := u.table }) ∧
          (∀ z, d.role = .sensor .occupancy → d.zone = some z → (s.zoneRec z).isSome = true → q = .good → 0 < v →
            (u.zone z).holdTimer = (s.zone z).holdTimer.start s.hall.hold ∧
            (1 ≤ s.hall.hold.prescale → (u.zone z).occupied = true)) ∧
          (∀ z, d.role = .sensor .occupancy → d.zone = some z → (s.zoneRec z).isSome = true →
            (statusIn s.table id).isSome = true →
            let seen := q = .good ∧ 0 < v
            let changed := a.quality ≠ (if q = .good then Quality.good else .suspect)
            (¬ seen → (u.zone z).holdTimer = (s.zone z).holdTimer) ∧
            (seen ∨ changed → ((u.zone z).occupied = true ↔ (u.zone z).holdTimer.running = true ∨
              ∃ e ∈ s.points, e.role = .sensor .occupancy ∧ e.zone = some z ∧ (u.status e.id).quality ≠ .good)) ∧
            (¬ seen → ¬ changed → (u.zone z).occupied = (s.zone z).occupied) ∧
            (q ≠ .good → changed → (u.zone z).occupied = true) ∧
            (∀ c r, s.coverRec c = some r → r.zone = z.val → (s.cover c).state = .closing → (s.zone z).occupied = false →
              (u.zone z).occupied = true → haltedFor s u c r .occupied 4) ∧
            (∀ c, (s.cover c).state ≠ .closing ∨ (s.zone z).occupied = true ∨ (u.zone z).occupied = false ∨
              (∀ r, s.coverRec c = some r → r.zone ≠ z.val) → u.cover c = s.cover c)) ∧
          (∀ c r, d.role = .sensor .coverPosition → s.coverAtPosition id = some (c, r) →
            (q ≠ .good → (s.cover c).moving = true → haltedFor s u c r .sensor 3) ∧
            ∃ w : State, w = { t with upstream := w.upstream, table := w.table } ∧
              u = settle t (w.positionTo c r (if q = .good then .good else .suspect) (some j))) ∧
          (∀ i, i ≠ id → u.status i = { s.status i with resend := (u.status i).resend, missed := (u.status i).missed }) ∧
          sameStation s u ∧ sameRun s u ∧ sameSources s u ∧ samePlant s u ∧ sameLink t u ∧ sameTrims s u ∧
          u.inputs = s.inputs ∧ u.echoes = s.echoes ∧ keepsNotices s u)) ∧
  sensorStatusOf 0 = .ok ∧ ∀ b : Byte, b ≠ 0 → sensorStatusOf b ≠ .ok

/-- An ECHO in an answer. Matched, by point and field sequence: the entry goes, an actuator's record takes the echo
(SUSPECT for FAULT, GOOD otherwise, age and misses 0), a station SET's echo is forwarded, on a running purge's fan
FAULT and LOCAL fail the run while an applied value above 0 of the cover's own confirms it, and the last awaited point
of a POWERING supply releases it with its deferred lamps. Unmatched: an actuator's record takes value and status and
counts it late, and nothing else changes (R64, R65, R132, R158). -/
def Obligations.EchoMatchesOrIsLate : Prop :=
  ∀ (seg : Fin 4) (node chan seq : Byte) (v : Int) (b : Byte) s x,
    (s.segment seg).exchange = some x → node.toNat = x.node.val → x.frames < 4 →
    let t := s.setSegment seg
      { s.segment seg with exchange := some { x with answered := true, frames := x.frames + 1 } }
    let id : PointId := ⟨seg.val, node.toNat, chan.toNat⟩
    let status : ActStatus := if b = 0 then .applied else if b = 1 then .limited else if b = 2 then .localHand else .fault
    (x.rollCall = true ∧ x.helloSeen = false → exec (.echo seg node chan seq v b) s = .next t) ∧
    (x.rollCall = false ∨ x.helloSeen = true →
      (s.echoEntry id seq = none →
        (s.actuatorAt id = none → exec (.echo seg node chan seq v b) s = .next t) ∧
        ((s.actuatorAt id).isSome = true → exec (.echo seg node chan seq v b) s =
          .next (t.modStatus id fun st => { st with value := v, status := some status, late := min (st.late + 1) 255 }))) ∧
      ∀ e, s.echoEntry id seq = some e → ∃ u : State, exec (.echo seg node chan seq v b) s = .next u ∧
        u.echoes = s.echoes.filter (fun y => y.point ≠ id) ∧
        ((s.actuatorAt id).isSome = true → (statusIn s.table id).isSome = true → u.status id = { s.status id with
          value := v, status := some status, quality := if status = .fault then .suspect else .good, age := 0, misses := 0
          resend := (u.status id).resend, missed := (u.status id).missed }) ∧
        (e.origin = .station → s.upstream.length < 64 → UpEntry.echo id e.trunkSeq v b ∈ u.upstream) ∧
        (s.actuatorAt id = none → u = { t with
          echoes := u.echoes, upstream := u.upstream, table := u.table, overrun := u.overrun, latched := u.latched }) ∧
        (∀ d c r, s.actuatorAt id = some d → d.owner = some .cover → s.coverAtFan id = some (c, r) →
          (s.cover c).purging = true →
          ((status = .fault ∨ status = .localHand) → (u.cover c).runFailed = true) ∧
          (status = .applied ∨ status = .limited → e.origin = .cover → 0 < v → (u.cover c).confirmed = true)) ∧
        (∀ d, s.actuatorAt id = some d → ∀ z m, d.owner = some .lighting → d.role = .actuator .lampSupply → d.zone = some z →
          s.supply z = some m → m.state = .powering → id ∈ m.awaiting → (∀ y ∈ m.awaiting, y = id) → e.origin = .lighting →
          u.supplyState z =
            some (if s.demand z = true ∨ ∃ i, (s.input i).latch = some .evacuate then .on else .stopping) ∧
          ∀ i c l, s.point i = some c → c.zone = some z → s.lamp i = some l → l.deferred = true →
            u.lamp i = some { l with deferred := false, elapsed := 0 } ∧
            (c.role = .actuator .lamp → (s.points.map (·.id)).Nodup → (statusIn s.table i).isSome = true →
              hasSet u i (clampTo c.low c.high l.target) .lighting ∨ (u.status i).resend = true)) ∧
        (∀ j, j ≠ id → u.status j = { s.status j with resend := (u.status j).resend, missed := (u.status j).missed }) ∧
        sameStation s u ∧ sameRun s u ∧ sameSources s u ∧ samePlant s u ∧ sameLink t u ∧ sameTrims s u ∧
        u.inputs = s.inputs ∧ keepsNotices s u)

/-- A HELLO of the polled node makes it PRESENT, misses 0 and newly joined, with NODE_JOINED where there is room; its
actuators are UNKNOWN, a job's wanted again or already queued; its pending entries go; its sensors are kept (R34,
R35). -/
def Obligations.HelloMakesTheNodePresent : Prop :=
  ∀ (seg : Fin 4) (node classCode channels : Byte) s x,
    (s.segment seg).exchange = some x → node.toNat = x.node.val → x.frames < 4 →
    let on (id : PointId) : Prop := id.seg = seg.val ∧ id.node = x.node.val
    let prior := (s.segment seg).nodes[x.node].state
    ∃ u : State, exec (.hello seg node classCode channels) s = .next u ∧
      (∀ n : Fin 31, (u.segment seg).nodes[n] =
        if n = x.node then { state := .present, misses := 0, joined := true } else (s.segment seg).nodes[n]) ∧
      (u.segment seg).exchange = some { x with answered := true, frames := x.frames + 1, helloSeen := true } ∧
      { u.segment seg with queue := [], nodes := (s.segment seg).nodes, exchange := none } =
        { s.segment seg with queue := [], exchange := none } ∧
      (∀ g, g ≠ seg → { u.segment g with queue := [] } = { s.segment g with queue := [] }) ∧
      (s.upstream.length < 64 → hasNotice u .nodeJoined (seg.val * 32 + x.node.val)
        (match prior with | .absent => 0 | .lost => 1 | .present => 2) classCode.toNat s.noticeSeq) ∧
      (∀ e, e ∈ u.echoes ↔ e ∈ s.echoes ∧ ¬ on e.point) ∧
      (∀ id d, s.point id = some d → d.isActuator = true → on id → (statusIn s.table id).isSome = true →
        u.status id = { s.status id with
          quality := .unknown, misses := 0, resend := (u.status id).resend, missed := (u.status id).missed } ∧
        (d.owner ≠ some .station → d.owner ≠ none →
          (u.status id).resend = true ∨ ∃ e ∈ (u.segment (pointSeg id)).queue, e.point = id)) ∧
      (∀ id, ¬ on id ∨ (∀ d, s.point id = some d → d.isActuator = false) → u.status id =
        { s.status id with resend := (u.status id).resend, missed := (u.status id).missed }) ∧
      sameStation s u ∧ sameRun s u ∧ sameSources s u ∧ samePlant s u ∧ sameTrims s u ∧ u.inputs = s.inputs ∧
      keepsNotices s u

/-- How an exchange goes on and ends. A frame outside an exchange or of another node is a bad frame: counted, and the
end of an answer that has begun; so is a fifth frame. END and a silence end the answer; without a valid first frame
the exchange is missed. At its end the node's misses are 0, or one up with the segment's count, and for the third the
node is LOST with its points, its pending and queued entries are removed, a removed job's entry marking its point for
resend, NODE_LOST is queued where there is room, a LOST OCCUPANCY point makes its in-use zone occupied (a flag newly
set halting the zone's CLOSING covers for OCCUPIED) and a LOST position halts its moving cover for SENSOR, a CLOSING
cover with both causes for one of them (log 62), each halt with its event and the drive's SET 0; a roll call changes
no miss count. The head of the queue follows, which is sent when the Pending Echo List has room or holds its point,
takes the next field sequence and a fresh echo timer, and is written into an actuator's record (R20, R29 to R32, R36,
R39, R40, R53, R54, R62, R63, R111, R128; logs 13, 14, 62). -/
def Obligations.ExchangesEndAndSendTheHead : Prop :=
  (∀ (seg : Fin 4) (node chan seq : Byte) (v : Int) (b k m : Byte) s,
    let bad := exec (.badSegmentFrame seg) s
    let counted := s.setSegment seg { s.segment seg with crcCount := min ((s.segment seg).crcCount + 1) 65535 }
    ((s.segment seg).exchange = none ∨
        (∃ x, (s.segment seg).exchange = some x ∧ (node.toNat ≠ x.node.val ∨ (x.answered = true ∧ 4 ≤ x.frames))) →
      exec (.sample seg node chan seq v b) s = bad ∧ exec (.echo seg node chan seq v b) s = bad ∧
        exec (.hello seg node k m) s = bad) ∧
    ((s.segment seg).exchange = none ∨ (∃ x, (s.segment seg).exchange = some x ∧ node.toNat ≠ x.node.val) →
      exec (.endFrame seg node) s = bad) ∧
    ((s.segment seg).exchange = none →
      bad = .next counted ∧ exec (.answerSilence seg) s = .next s ∧ exec (.missedAnswer seg) s = .next s) ∧
    ∀ x, (s.segment seg).exchange = some x →
      (node.toNat = x.node.val → exec (.endFrame seg node) s = .next (s.completeExchange seg { x with answered := true })) ∧
      (x.answered = true →
        bad = .next (counted.completeExchange seg x) ∧ exec (.answerSilence seg) s = .next (s.completeExchange seg x) ∧
          exec (.missedAnswer seg) s = .next s) ∧
      (x.answered = false →
        bad = .next counted ∧ exec (.answerSilence seg) s = .next s ∧
          exec (.missedAnswer seg) s = .next (s.completeExchange seg x))) ∧
  (∀ (seg : Fin 4) (x : Exchange) (s : State),
    let g := s.segment seg
    let n := g.nodes[x.node]
    let on (id : PointId) : Prop := id.seg = seg.val ∧ id.node = x.node.val
    (x.rollCall = true → s.completeExchange seg x = (s.setSegment seg { g with exchange := none }).sendHead seg) ∧
    (x.rollCall = false → x.answered = true → s.completeExchange seg x =
      (s.setSegment seg { g with exchange := none, nodes := g.nodes.set x.node { n with misses := 0 } }).sendHead seg) ∧
    (x.rollCall = false → x.answered = false → n.misses < 2 → s.completeExchange seg x =
      (s.setSegment seg { g with
        exchange := none, nodes := g.nodes.set x.node { n with misses := n.misses + 1 }
        missCount := min (g.missCount + 1) 65535 }).sendHead seg) ∧
    (x.rollCall = false → x.answered = false → 2 ≤ n.misses → ∃ u : State,
      s.completeExchange seg x = u.sendHead seg ∧
      { u.segment seg with queue := [] } = { g with
        queue := [], exchange := none, nodes := g.nodes.set x.node { n with misses := 3, state := .lost }
        missCount := min (g.missCount + 1) 65535 } ∧
      (∀ id d, s.point id = some d → on id → (statusIn s.table id).isSome = true → u.status id = { s.status id with
        quality := .lost, resend := (u.status id).resend, missed := (u.status id).missed }) ∧
      (∀ id, ¬ on id → u.status id = { s.status id with resend := (u.status id).resend, missed := (u.status id).missed }) ∧
      (∀ id d z, s.point id = some d → on id → d.role = .sensor .occupancy → d.zone = some z →
        (s.zoneRec z).isSome = true → (statusIn s.table id).isSome = true → (s.status id).quality ≠ .lost →
        (u.zone z).occupied = true ∧
        ((s.zone z).occupied = false → ∀ c r, s.coverRec c = some r → r.zone = z.val → (s.cover c).state = .closing →
          (haltedFor s u c r .sensor 3 ∨ haltedFor s u c r .occupied 4) ∧
          ((u.status r.position).quality = (s.status r.position).quality → haltedFor s u c r .occupied 4))) ∧
      (∀ id c r d, s.point id = some d → on id → d.role = .sensor .coverPosition →
        s.coverAtPosition id = some (c, r) → (statusIn s.table id).isSome = true → (s.status id).quality ≠ .lost →
        (s.cover c).moving = true → (haltedFor s u c r .sensor 3 ∨ haltedFor s u c r .occupied 4) ∧
          ((s.cover c).state = .opening ∨ (u.zone r.zoneNo).occupied = (s.zone r.zoneNo).occupied →
            haltedFor s u c r .sensor 3)) ∧
      (∀ e, e ∈ u.echoes ↔ e ∈ s.echoes ∧ ¬ on e.point) ∧
      (∀ e ∈ g.queue, ¬ on e.point → ∃ f ∈ (u.segment seg).queue, f.point = e.point) ∧
      (∀ f ∈ (u.segment seg).queue, ¬ on f.point) ∧
      (∀ e ∈ g.queue, on e.point → e.origin ≠ .station → (statusIn s.table e.point).isSome = true →
        (u.status e.point).resend = true) ∧
      (s.upstream.length < 64 → hasNotice u .nodeLost (seg.val * 32 + x.node.val) 3 0 s.noticeSeq) ∧
      sameStation s u ∧ sameRun s u ∧ sameSources s u ∧ samePlant s u ∧ sameTrims s u ∧ u.inputs = s.inputs ∧
      keepsNotices s u)) ∧
  ∀ (seg : Fin 4) (s : State),
    let g := s.segment seg
    (g.queue = [] → s.sendHead seg = s) ∧
    ∀ e rest, g.queue = e :: rest →
      let room := s.echoes.length < 32 ∨ ∃ y ∈ s.echoes, y.point = e.point
      (¬ room → s.sendHead seg = s) ∧
      (room → ∃ u : State, s.sendHead seg = u ∧
        u.segment seg = { g with
          queue := rest, fieldSeq := g.fieldSeq + 1
          lastFrame := some
            { addr := 0, kind := 0x22, seg := BitVec.ofNat 4 seg.val, service := false, more := false
              node := byteOf e.point.node, chan := byteOf e.point.chan, seq := g.fieldSeq
              payload := s32 e.value ++ u16 e.fade } } ∧
        (∀ h, h ≠ seg → u.segment h = s.segment h) ∧
        (∃ y ∈ u.echoes, y.point = e.point ∧ y.fieldSeq = g.fieldSeq ∧ y.value = e.value ∧ y.origin = e.origin ∧
          y.trunkSeq = e.trunkSeq ∧
          y.timer = { running := true, prescale := 1, setting := 20, prescaler := 1, count := 20 }) ∧
        (∀ y, y.point ≠ e.point → (y ∈ u.echoes ↔ y ∈ s.echoes)) ∧
        (∀ id, u.status id = if id = e.point ∧ (s.actuatorAt id).isSome = true ∧ (statusIn s.table id).isSome = true then
          { s.status id with commanded := some e.value, origin := some e.origin } else s.status id) ∧
        u = { s with segs := u.segs, echoes := u.echoes, table := u.table })

/-- The bytes of a frame, heard by a receiver that hunts, are that frame and nothing else, for every header and every
payload of at most 40 bytes that has its kind's length; a value of 32 bits is read back from its four bytes; and a
station's SET, a node's SAMPLE and a node's ECHO are read as the commands they are (R21, R191, Tables 12-1 and 12-2).
That byte receivers stand beside commands of whole frames is the model's choice (log 10). -/
def Obligations.FramesRoundTrip : Prop :=
  (∀ (l : Line) (f : Frame), f.payload.length ≤ 40 → payloadFits l f.kind f.payload = true →
    listen l .hunting f.bytes = (.hunting, [.frame f])) ∧
  (∀ v : Int, -2147483648 ≤ v → v < 2147483648 → getS32 (s32 v) 0 = v) ∧
  (∀ (addr : Byte) (h : TrunkHdr) (v : Int) (fade : Nat), -2147483648 ≤ v → v < 2147483648 → fade < 65536 → h.seg ≠ 7 →
    trunkCommand addr (.frame
      { addr := addr, kind := 0x22, seg := h.seg, service := false, more := false, node := h.node, chan := h.chan
        seq := h.seq, payload := s32 v ++ u16 fade }) = .stationSet h v fade) ∧
  ∀ (seg : Fin 4) (x : BitVec 4) (node chan seq b : Byte) (v : Int), -2147483648 ≤ v → v < 2147483648 →
    let frame (k : Byte) : Frame :=
      { addr := 0, kind := k, seg := x, service := false, more := false, node := node, chan := chan, seq := seq
        payload := s32 v ++ [b] }
    segmentCommand seg (.frame (frame 0x11)) = .sample seg node chan seq v b ∧
      segmentCommand seg (.frame (frame 0x23)) = .echo seg node chan seq v b

/-! ### Input lines -/

/-- An input pin's change starts the stability interval or abandons it; the interval's end makes the pin's level the
debounced one. A line that becomes active sets the clear latch of its enabled input: the INPUT condition,
INPUT_LATCHED where there is room, and its action: EVACUATE and COVER_STOP halt every moving cover for STOPPED, its
travel timer stopped, its drive submitted SET 0 and HALTED_STOPPED queued, the first EVACUATE puts every supply ON
with SET 1 to its points and every lamp of the strip at 1000 (one not deferred whose target is 1000 already keeps its
record and its fade, log 61), PLANT_TRIP takes the plant from every zone, and the requests set the mode. Any other
transition touches no latch (R128, R163, R174 to R176). -/
def Obligations.InputLinesDebounceAndLatch : Prop :=
  (∀ (i : Fin 8) (v : Level) s, exec (.inputLineChange i v) s = .next (s.setInput i { s.input i with
    level := v
    settling := if (s.input i).level = v then (s.input i).settling else decide (v ≠ (s.input i).debounced) })) ∧
  ∀ (i : Fin 8) s,
    let l := s.input i
    let t := s.setInput i { l with settling := false, debounced := l.level }
    let active (r : InputRec) (v : Level) : Prop := (r.sense = .activeHigh ∧ v = .high) ∨ (r.sense = .activeLow ∧ v = .low)
    (l.settling = false → exec (.debouncedTransition i) s = .next s) ∧
    (l.settling = true →
      (l.latch ≠ none ∨ s.inputRec i = none ∨
          (∃ r, s.inputRec i = some r ∧ (r.enabled = false ∨ active r l.debounced ∨ ¬ active r l.level)) →
        exec (.debouncedTransition i) s = .next t) ∧
      ∀ r, l.latch = none → s.inputRec i = some r → r.enabled = true → ¬ active r l.debounced → active r l.level →
        ∃ u : State, exec (.debouncedTransition i) s = .next u ∧
          (∀ j, u.input j = if j = i then
            { l with settling := false, debounced := l.level, latch := some r.action } else s.input j) ∧
          u.latched.input = true ∧
          (s.upstream.length < 64 → hasNotice u .inputLatched i.val r.action.code 0 s.noticeSeq) ∧
          (r.action = .evacuate ∨ r.action = .coverStop → ∀ c q, s.coverRec c = some q → (s.cover c).moving = true →
            haltedFor s u c q .stopped 6) ∧
          (r.action = .evacuate → (∃ j, (s.input j).latch = some .evacuate) → u.lamps = s.lamps ∧ u.supplies = s.supplies) ∧
          (r.action = .evacuate → (∀ j, (s.input j).latch ≠ some .evacuate) →
            (∀ id d a, s.point id = some d → s.lamp id = some a → ∃ b, u.lamp id = some b ∧ b.target = 1000 ∧
              b.deferred = false ∧
              (a.target = 1000 → a.deferred = false → (s.lamps.map (·.id)).Nodup → b = a) ∧ (a.target ≠ 1000 ∨ a.deferred = true → b.fade = 0 ∧ b.expected = 1000 ∧
                (d.role = .actuator .lamp → (s.points.map (·.id)).Nodup → (statusIn s.table id).isSome = true →
                  hasSet u id (clampTo d.low d.high 1000) .lighting ∨ (u.status id).resend = true))) ∧
            ∀ z m, s.supply z = some m →
              u.supply z = some { m with state := .on, awaiting := [], offDelay := m.offDelay.stop } ∧
              ∀ id ∈ s.supplyPoints z, ∀ d, s.point id = some d → s.lamp id = none → (s.points.map (·.id)).Nodup →
                (statusIn s.table id).isSome = true →
                hasSet u id (clampTo d.low d.high 1) .lighting ∨ (u.status id).resend = true) ∧
          (r.action = .plantTrip → u.effectiveCapacity = 0 ∧
            (s.effectiveCapacity ≠ 0 → ∀ z ∈ s.priority, (u.zone z).grant = 0)) ∧
          (r.action = .requestNight → u.mode = some .night) ∧ (r.action = .requestStaffed → u.mode = some .staffed) ∧
          (r.action = .noticeOnly → u.covers = s.covers ∧ u.zones = s.zones ∧ u.lamps = s.lamps ∧
            u.supplies = s.supplies ∧ u.mode = s.mode ∧ u.segs = s.segs) ∧
          sameStation s u ∧ sameRun s u ∧ sameSources s u ∧ samePlant s u ∧ sameLink s u ∧ sameTrims s u ∧
          sameStatuses s u ∧ u.echoes = s.echoes ∧ keepsNotices s u)

/-! ### Invariants -/

/-- Every queue keeps its bounds over every step: 64 upstream entries with no two SAMPLEs of one identity, 8 entries
of a send queue and 32 pending echoes, at most one of a point in each (R38, R48, R63). -/
def Obligations.EveryStepKeepsQueueBounds : Prop :=
  ∀ s t : State, s.queuesInBounds → step s = .next t → t.queuesInBounds

/-- The banks stay lawful over every step: one ACTIVE bank exactly outside BYPASS, one LOADING bank exactly while a
load context names it, its counts those of its records, and no READY or ACTIVE bank that a cross-record check fails
(R5 to R10). -/
def Obligations.EveryStepKeepsBanksLawful : Prop :=
  ∀ s t : State, s.banksLawful → step s = .next t → t.banksLawful

/-- In BYPASS no job holds anything and no job timer runs, over every step (R166, R178, R181). The values at which
BYPASS holds the zone and cover records, the priority order and the dormant-pending flag are the model's choice (log
7). -/
def Obligations.EveryStepKeepsBypassQuiet : Prop :=
  ∀ s t : State, s.bypassQuiet → step s = .next t → t.bypassQuiet

/-- Palette entry 0 stays dark, every level lies in 0..1000, a playing source stays within its loop and the split in
0..96, over every step (R141, R143, R150 to R155). -/
def Obligations.EveryStepKeepsLightingLawful : Prop :=
  ∀ s t : State, s.lightingLawful → step s = .next t → t.lightingLawful

/-- Over every step from a state whose banks are lawful: a GOOD point's age stays within its stale limit, every lamp
record is that of a lamp of the strip and no lamp has two, the latch of an enabled EDGE_AND_LEVEL input stays set
while its debounced line is active, and the hall is DORMANT only while nothing of R169 bars it: no purge runs, no
cover moves, no in-use zone's risk flag is set and no EVACUATE latch is set (R19, R144, R145, R169, R175). -/
def Obligations.EveryStepKeepsAgesAndLatches : Prop :=
  ∀ s t : State, s.banksLawful → step s = .next t →
    (s.agesLawful → t.agesLawful) ∧ (s.stripLawful → t.stripLawful) ∧ (s.dormantQuiet → t.dormantQuiet) ∧
    ((∀ i, s.levelHeld i = true → (s.input i).latch.isSome = true) →
      ∀ i, t.levelHeld i = true → (t.input i).latch.isSome = true)

/-- The plant stays shared out within the effective capacity, and no grant over its request, over every step from a
state whose banks are lawful and whose BYPASS is quiet (R116 to R119). -/
def Obligations.EveryStepKeepsThePlantWithinCapacity : Prop :=
  ∀ s t : State, s.banksLawful → s.bypassQuiet → s.plantLawful → step s = .next t → t.plantLawful
end

