-- ==== Sys2Proof/Laws/State.lean ====
section
/-! SUPPORT. One lemma for each field under each update of State, true by rfl, and what reading a table gives after one
entry is written. -/

namespace Sys2Proof.Machine

variable (s : State)

/-! ### setZone -/

@[simp] theorem setZone_pending (z : Fin 8) (v : Zone) : (s.setZone z v).pending = s.pending := rfl
@[simp] theorem setZone_trunkAddr (z : Fin 8) (v : Zone) : (s.setZone z v).trunkAddr = s.trunkAddr := rfl
@[simp] theorem setZone_runState (z : Fin 8) (v : Zone) : (s.setZone z v).runState = s.runState := rfl
@[simp] theorem setZone_silence (z : Fin 8) (v : Zone) : (s.setZone z v).silence = s.silence := rfl
@[simp] theorem setZone_protocolError (z : Fin 8) (v : Zone) : (s.setZone z v).protocolError = s.protocolError := rfl
@[simp] theorem setZone_trunkCrc (z : Fin 8) (v : Zone) : (s.setZone z v).trunkCrc = s.trunkCrc := rfl
@[simp] theorem setZone_tx (z : Fin 8) (v : Zone) : (s.setZone z v).tx = s.tx := rfl
@[simp] theorem setZone_latched (z : Fin 8) (v : Zone) : (s.setZone z v).latched = s.latched := rfl
@[simp] theorem setZone_noticeSeq (z : Fin 8) (v : Zone) : (s.setZone z v).noticeSeq = s.noticeSeq := rfl
@[simp] theorem setZone_upstream (z : Fin 8) (v : Zone) : (s.setZone z v).upstream = s.upstream := rfl
@[simp] theorem setZone_overrun (z : Fin 8) (v : Zone) : (s.setZone z v).overrun = s.overrun := rfl
@[simp] theorem setZone_clamps (z : Fin 8) (v : Zone) : (s.setZone z v).clamps = s.clamps := rfl
@[simp] theorem setZone_echoes (z : Fin 8) (v : Zone) : (s.setZone z v).echoes = s.echoes := rfl
@[simp] theorem setZone_segs (z : Fin 8) (v : Zone) : (s.setZone z v).segs = s.segs := rfl
@[simp] theorem setZone_banks (z : Fin 8) (v : Zone) : (s.setZone z v).banks = s.banks := rfl
@[simp] theorem setZone_load (z : Fin 8) (v : Zone) : (s.setZone z v).load = s.load := rfl
@[simp] theorem setZone_active (z : Fin 8) (v : Zone) : (s.setZone z v).active = s.active := rfl
@[simp] theorem setZone_table (z : Fin 8) (v : Zone) : (s.setZone z v).table = s.table := rfl
@[simp] theorem setZone_outdoor (z : Fin 8) (v : Zone) : (s.setZone z v).outdoor = s.outdoor := rfl
@[simp] theorem setZone_capacity (z : Fin 8) (v : Zone) : (s.setZone z v).capacity = s.capacity := rfl
@[simp] theorem setZone_priority (z : Fin 8) (v : Zone) : (s.setZone z v).priority = s.priority := rfl
@[simp] theorem setZone_covers (z : Fin 8) (v : Zone) : (s.setZone z v).covers = s.covers := rfl
@[simp] theorem setZone_palette (z : Fin 8) (v : Zone) : (s.setZone z v).palette = s.palette := rfl
@[simp] theorem setZone_loops (z : Fin 8) (v : Zone) : (s.setZone z v).loops = s.loops := rfl
@[simp] theorem setZone_sourceA (z : Fin 8) (v : Zone) : (s.setZone z v).sourceA = s.sourceA := rfl
@[simp] theorem setZone_sourceB (z : Fin 8) (v : Zone) : (s.setZone z v).sourceB = s.sourceB := rfl
@[simp] theorem setZone_split (z : Fin 8) (v : Zone) : (s.setZone z v).split = s.split := rfl
@[simp] theorem setZone_lamps (z : Fin 8) (v : Zone) : (s.setZone z v).lamps = s.lamps := rfl
@[simp] theorem setZone_supplies (z : Fin 8) (v : Zone) : (s.setZone z v).supplies = s.supplies := rfl
@[simp] theorem setZone_mode (z : Fin 8) (v : Zone) : (s.setZone z v).mode = s.mode := rfl
@[simp] theorem setZone_dormantPending (z : Fin 8) (v : Zone) : (s.setZone z v).dormantPending = s.dormantPending := rfl
@[simp] theorem setZone_watch (z : Fin 8) (v : Zone) : (s.setZone z v).watch = s.watch := rfl
@[simp] theorem setZone_inputs (z : Fin 8) (v : Zone) : (s.setZone z v).inputs = s.inputs := rfl
@[simp] theorem setZone_freeCount (z : Fin 8) (v : Zone) : (s.setZone z v).freeCount = s.freeCount := rfl

/-! ### setCover -/

@[simp] theorem setCover_pending (c : Fin 6) (v : Cover) : (s.setCover c v).pending = s.pending := rfl
@[simp] theorem setCover_trunkAddr (c : Fin 6) (v : Cover) : (s.setCover c v).trunkAddr = s.trunkAddr := rfl
@[simp] theorem setCover_runState (c : Fin 6) (v : Cover) : (s.setCover c v).runState = s.runState := rfl
@[simp] theorem setCover_silence (c : Fin 6) (v : Cover) : (s.setCover c v).silence = s.silence := rfl
@[simp] theorem setCover_protocolError (c : Fin 6) (v : Cover) : (s.setCover c v).protocolError = s.protocolError := rfl
@[simp] theorem setCover_trunkCrc (c : Fin 6) (v : Cover) : (s.setCover c v).trunkCrc = s.trunkCrc := rfl
@[simp] theorem setCover_tx (c : Fin 6) (v : Cover) : (s.setCover c v).tx = s.tx := rfl
@[simp] theorem setCover_latched (c : Fin 6) (v : Cover) : (s.setCover c v).latched = s.latched := rfl
@[simp] theorem setCover_noticeSeq (c : Fin 6) (v : Cover) : (s.setCover c v).noticeSeq = s.noticeSeq := rfl
@[simp] theorem setCover_upstream (c : Fin 6) (v : Cover) : (s.setCover c v).upstream = s.upstream := rfl
@[simp] theorem setCover_overrun (c : Fin 6) (v : Cover) : (s.setCover c v).overrun = s.overrun := rfl
@[simp] theorem setCover_clamps (c : Fin 6) (v : Cover) : (s.setCover c v).clamps = s.clamps := rfl
@[simp] theorem setCover_echoes (c : Fin 6) (v : Cover) : (s.setCover c v).echoes = s.echoes := rfl
@[simp] theorem setCover_segs (c : Fin 6) (v : Cover) : (s.setCover c v).segs = s.segs := rfl
@[simp] theorem setCover_banks (c : Fin 6) (v : Cover) : (s.setCover c v).banks = s.banks := rfl
@[simp] theorem setCover_load (c : Fin 6) (v : Cover) : (s.setCover c v).load = s.load := rfl
@[simp] theorem setCover_active (c : Fin 6) (v : Cover) : (s.setCover c v).active = s.active := rfl
@[simp] theorem setCover_table (c : Fin 6) (v : Cover) : (s.setCover c v).table = s.table := rfl
@[simp] theorem setCover_zones (c : Fin 6) (v : Cover) : (s.setCover c v).zones = s.zones := rfl
@[simp] theorem setCover_outdoor (c : Fin 6) (v : Cover) : (s.setCover c v).outdoor = s.outdoor := rfl
@[simp] theorem setCover_capacity (c : Fin 6) (v : Cover) : (s.setCover c v).capacity = s.capacity := rfl
@[simp] theorem setCover_priority (c : Fin 6) (v : Cover) : (s.setCover c v).priority = s.priority := rfl
@[simp] theorem setCover_palette (c : Fin 6) (v : Cover) : (s.setCover c v).palette = s.palette := rfl
@[simp] theorem setCover_loops (c : Fin 6) (v : Cover) : (s.setCover c v).loops = s.loops := rfl
@[simp] theorem setCover_sourceA (c : Fin 6) (v : Cover) : (s.setCover c v).sourceA = s.sourceA := rfl
@[simp] theorem setCover_sourceB (c : Fin 6) (v : Cover) : (s.setCover c v).sourceB = s.sourceB := rfl
@[simp] theorem setCover_split (c : Fin 6) (v : Cover) : (s.setCover c v).split = s.split := rfl
@[simp] theorem setCover_lamps (c : Fin 6) (v : Cover) : (s.setCover c v).lamps = s.lamps := rfl
@[simp] theorem setCover_supplies (c : Fin 6) (v : Cover) : (s.setCover c v).supplies = s.supplies := rfl
@[simp] theorem setCover_mode (c : Fin 6) (v : Cover) : (s.setCover c v).mode = s.mode := rfl
@[simp] theorem setCover_dormantPending (c : Fin 6) (v : Cover) : (s.setCover c v).dormantPending = s.dormantPending := rfl
@[simp] theorem setCover_watch (c : Fin 6) (v : Cover) : (s.setCover c v).watch = s.watch := rfl
@[simp] theorem setCover_inputs (c : Fin 6) (v : Cover) : (s.setCover c v).inputs = s.inputs := rfl
@[simp] theorem setCover_freeCount (c : Fin 6) (v : Cover) : (s.setCover c v).freeCount = s.freeCount := rfl

/-! ### setSegment -/

@[simp] theorem setSegment_pending (g : Fin 4) (v : Segment) : (s.setSegment g v).pending = s.pending := rfl
@[simp] theorem setSegment_trunkAddr (g : Fin 4) (v : Segment) : (s.setSegment g v).trunkAddr = s.trunkAddr := rfl
@[simp] theorem setSegment_runState (g : Fin 4) (v : Segment) : (s.setSegment g v).runState = s.runState := rfl
@[simp] theorem setSegment_silence (g : Fin 4) (v : Segment) : (s.setSegment g v).silence = s.silence := rfl
@[simp] theorem setSegment_protocolError (g : Fin 4) (v : Segment) : (s.setSegment g v).protocolError = s.protocolError := rfl
@[simp] theorem setSegment_trunkCrc (g : Fin 4) (v : Segment) : (s.setSegment g v).trunkCrc = s.trunkCrc := rfl
@[simp] theorem setSegment_tx (g : Fin 4) (v : Segment) : (s.setSegment g v).tx = s.tx := rfl
@[simp] theorem setSegment_latched (g : Fin 4) (v : Segment) : (s.setSegment g v).latched = s.latched := rfl
@[simp] theorem setSegment_noticeSeq (g : Fin 4) (v : Segment) : (s.setSegment g v).noticeSeq = s.noticeSeq := rfl
@[simp] theorem setSegment_upstream (g : Fin 4) (v : Segment) : (s.setSegment g v).upstream = s.upstream := rfl
@[simp] theorem setSegment_overrun (g : Fin 4) (v : Segment) : (s.setSegment g v).overrun = s.overrun := rfl
@[simp] theorem setSegment_clamps (g : Fin 4) (v : Segment) : (s.setSegment g v).clamps = s.clamps := rfl
@[simp] theorem setSegment_echoes (g : Fin 4) (v : Segment) : (s.setSegment g v).echoes = s.echoes := rfl
@[simp] theorem setSegment_banks (g : Fin 4) (v : Segment) : (s.setSegment g v).banks = s.banks := rfl
@[simp] theorem setSegment_load (g : Fin 4) (v : Segment) : (s.setSegment g v).load = s.load := rfl
@[simp] theorem setSegment_active (g : Fin 4) (v : Segment) : (s.setSegment g v).active = s.active := rfl
@[simp] theorem setSegment_table (g : Fin 4) (v : Segment) : (s.setSegment g v).table = s.table := rfl
@[simp] theorem setSegment_zones (g : Fin 4) (v : Segment) : (s.setSegment g v).zones = s.zones := rfl
@[simp] theorem setSegment_outdoor (g : Fin 4) (v : Segment) : (s.setSegment g v).outdoor = s.outdoor := rfl
@[simp] theorem setSegment_capacity (g : Fin 4) (v : Segment) : (s.setSegment g v).capacity = s.capacity := rfl
@[simp] theorem setSegment_priority (g : Fin 4) (v : Segment) : (s.setSegment g v).priority = s.priority := rfl
@[simp] theorem setSegment_covers (g : Fin 4) (v : Segment) : (s.setSegment g v).covers = s.covers := rfl
@[simp] theorem setSegment_palette (g : Fin 4) (v : Segment) : (s.setSegment g v).palette = s.palette := rfl
@[simp] theorem setSegment_loops (g : Fin 4) (v : Segment) : (s.setSegment g v).loops = s.loops := rfl
@[simp] theorem setSegment_sourceA (g : Fin 4) (v : Segment) : (s.setSegment g v).sourceA = s.sourceA := rfl
@[simp] theorem setSegment_sourceB (g : Fin 4) (v : Segment) : (s.setSegment g v).sourceB = s.sourceB := rfl
@[simp] theorem setSegment_split (g : Fin 4) (v : Segment) : (s.setSegment g v).split = s.split := rfl
@[simp] theorem setSegment_lamps (g : Fin 4) (v : Segment) : (s.setSegment g v).lamps = s.lamps := rfl
@[simp] theorem setSegment_supplies (g : Fin 4) (v : Segment) : (s.setSegment g v).supplies = s.supplies := rfl
@[simp] theorem setSegment_mode (g : Fin 4) (v : Segment) : (s.setSegment g v).mode = s.mode := rfl
@[simp] theorem setSegment_dormantPending (g : Fin 4) (v : Segment) : (s.setSegment g v).dormantPending = s.dormantPending := rfl
@[simp] theorem setSegment_watch (g : Fin 4) (v : Segment) : (s.setSegment g v).watch = s.watch := rfl
@[simp] theorem setSegment_inputs (g : Fin 4) (v : Segment) : (s.setSegment g v).inputs = s.inputs := rfl
@[simp] theorem setSegment_freeCount (g : Fin 4) (v : Segment) : (s.setSegment g v).freeCount = s.freeCount := rfl

/-! ### setBank -/

@[simp] theorem setBank_pending (b : Fin 2) (v : Bank) : (s.setBank b v).pending = s.pending := rfl
@[simp] theorem setBank_trunkAddr (b : Fin 2) (v : Bank) : (s.setBank b v).trunkAddr = s.trunkAddr := rfl
@[simp] theorem setBank_runState (b : Fin 2) (v : Bank) : (s.setBank b v).runState = s.runState := rfl
@[simp] theorem setBank_silence (b : Fin 2) (v : Bank) : (s.setBank b v).silence = s.silence := rfl
@[simp] theorem setBank_protocolError (b : Fin 2) (v : Bank) : (s.setBank b v).protocolError = s.protocolError := rfl
@[simp] theorem setBank_trunkCrc (b : Fin 2) (v : Bank) : (s.setBank b v).trunkCrc = s.trunkCrc := rfl
@[simp] theorem setBank_tx (b : Fin 2) (v : Bank) : (s.setBank b v).tx = s.tx := rfl
@[simp] theorem setBank_latched (b : Fin 2) (v : Bank) : (s.setBank b v).latched = s.latched := rfl
@[simp] theorem setBank_noticeSeq (b : Fin 2) (v : Bank) : (s.setBank b v).noticeSeq = s.noticeSeq := rfl
@[simp] theorem setBank_upstream (b : Fin 2) (v : Bank) : (s.setBank b v).upstream = s.upstream := rfl
@[simp] theorem setBank_overrun (b : Fin 2) (v : Bank) : (s.setBank b v).overrun = s.overrun := rfl
@[simp] theorem setBank_clamps (b : Fin 2) (v : Bank) : (s.setBank b v).clamps = s.clamps := rfl
@[simp] theorem setBank_echoes (b : Fin 2) (v : Bank) : (s.setBank b v).echoes = s.echoes := rfl
@[simp] theorem setBank_segs (b : Fin 2) (v : Bank) : (s.setBank b v).segs = s.segs := rfl
@[simp] theorem setBank_load (b : Fin 2) (v : Bank) : (s.setBank b v).load = s.load := rfl
@[simp] theorem setBank_active (b : Fin 2) (v : Bank) : (s.setBank b v).active = s.active := rfl
@[simp] theorem setBank_table (b : Fin 2) (v : Bank) : (s.setBank b v).table = s.table := rfl
@[simp] theorem setBank_zones (b : Fin 2) (v : Bank) : (s.setBank b v).zones = s.zones := rfl
@[simp] theorem setBank_outdoor (b : Fin 2) (v : Bank) : (s.setBank b v).outdoor = s.outdoor := rfl
@[simp] theorem setBank_capacity (b : Fin 2) (v : Bank) : (s.setBank b v).capacity = s.capacity := rfl
@[simp] theorem setBank_priority (b : Fin 2) (v : Bank) : (s.setBank b v).priority = s.priority := rfl
@[simp] theorem setBank_covers (b : Fin 2) (v : Bank) : (s.setBank b v).covers = s.covers := rfl
@[simp] theorem setBank_palette (b : Fin 2) (v : Bank) : (s.setBank b v).palette = s.palette := rfl
@[simp] theorem setBank_loops (b : Fin 2) (v : Bank) : (s.setBank b v).loops = s.loops := rfl
@[simp] theorem setBank_sourceA (b : Fin 2) (v : Bank) : (s.setBank b v).sourceA = s.sourceA := rfl
@[simp] theorem setBank_sourceB (b : Fin 2) (v : Bank) : (s.setBank b v).sourceB = s.sourceB := rfl
@[simp] theorem setBank_split (b : Fin 2) (v : Bank) : (s.setBank b v).split = s.split := rfl
@[simp] theorem setBank_lamps (b : Fin 2) (v : Bank) : (s.setBank b v).lamps = s.lamps := rfl
@[simp] theorem setBank_supplies (b : Fin 2) (v : Bank) : (s.setBank b v).supplies = s.supplies := rfl
@[simp] theorem setBank_mode (b : Fin 2) (v : Bank) : (s.setBank b v).mode = s.mode := rfl
@[simp] theorem setBank_dormantPending (b : Fin 2) (v : Bank) : (s.setBank b v).dormantPending = s.dormantPending := rfl
@[simp] theorem setBank_watch (b : Fin 2) (v : Bank) : (s.setBank b v).watch = s.watch := rfl
@[simp] theorem setBank_inputs (b : Fin 2) (v : Bank) : (s.setBank b v).inputs = s.inputs := rfl
@[simp] theorem setBank_freeCount (b : Fin 2) (v : Bank) : (s.setBank b v).freeCount = s.freeCount := rfl

/-! ### setSupply -/

@[simp] theorem setSupply_pending (z : Fin 8) (v : Option Supply) : (s.setSupply z v).pending = s.pending := rfl
@[simp] theorem setSupply_trunkAddr (z : Fin 8) (v : Option Supply) : (s.setSupply z v).trunkAddr = s.trunkAddr := rfl
@[simp] theorem setSupply_runState (z : Fin 8) (v : Option Supply) : (s.setSupply z v).runState = s.runState := rfl
@[simp] theorem setSupply_silence (z : Fin 8) (v : Option Supply) : (s.setSupply z v).silence = s.silence := rfl
@[simp] theorem setSupply_protocolError (z : Fin 8) (v : Option Supply) : (s.setSupply z v).protocolError = s.protocolError := rfl
@[simp] theorem setSupply_trunkCrc (z : Fin 8) (v : Option Supply) : (s.setSupply z v).trunkCrc = s.trunkCrc := rfl
@[simp] theorem setSupply_tx (z : Fin 8) (v : Option Supply) : (s.setSupply z v).tx = s.tx := rfl
@[simp] theorem setSupply_latched (z : Fin 8) (v : Option Supply) : (s.setSupply z v).latched = s.latched := rfl
@[simp] theorem setSupply_noticeSeq (z : Fin 8) (v : Option Supply) : (s.setSupply z v).noticeSeq = s.noticeSeq := rfl
@[simp] theorem setSupply_upstream (z : Fin 8) (v : Option Supply) : (s.setSupply z v).upstream = s.upstream := rfl
@[simp] theorem setSupply_overrun (z : Fin 8) (v : Option Supply) : (s.setSupply z v).overrun = s.overrun := rfl
@[simp] theorem setSupply_clamps (z : Fin 8) (v : Option Supply) : (s.setSupply z v).clamps = s.clamps := rfl
@[simp] theorem setSupply_echoes (z : Fin 8) (v : Option Supply) : (s.setSupply z v).echoes = s.echoes := rfl
@[simp] theorem setSupply_segs (z : Fin 8) (v : Option Supply) : (s.setSupply z v).segs = s.segs := rfl
@[simp] theorem setSupply_banks (z : Fin 8) (v : Option Supply) : (s.setSupply z v).banks = s.banks := rfl
@[simp] theorem setSupply_load (z : Fin 8) (v : Option Supply) : (s.setSupply z v).load = s.load := rfl
@[simp] theorem setSupply_active (z : Fin 8) (v : Option Supply) : (s.setSupply z v).active = s.active := rfl
@[simp] theorem setSupply_table (z : Fin 8) (v : Option Supply) : (s.setSupply z v).table = s.table := rfl
@[simp] theorem setSupply_zones (z : Fin 8) (v : Option Supply) : (s.setSupply z v).zones = s.zones := rfl
@[simp] theorem setSupply_outdoor (z : Fin 8) (v : Option Supply) : (s.setSupply z v).outdoor = s.outdoor := rfl
@[simp] theorem setSupply_capacity (z : Fin 8) (v : Option Supply) : (s.setSupply z v).capacity = s.capacity := rfl
@[simp] theorem setSupply_priority (z : Fin 8) (v : Option Supply) : (s.setSupply z v).priority = s.priority := rfl
@[simp] theorem setSupply_covers (z : Fin 8) (v : Option Supply) : (s.setSupply z v).covers = s.covers := rfl
@[simp] theorem setSupply_palette (z : Fin 8) (v : Option Supply) : (s.setSupply z v).palette = s.palette := rfl
@[simp] theorem setSupply_loops (z : Fin 8) (v : Option Supply) : (s.setSupply z v).loops = s.loops := rfl
@[simp] theorem setSupply_sourceA (z : Fin 8) (v : Option Supply) : (s.setSupply z v).sourceA = s.sourceA := rfl
@[simp] theorem setSupply_sourceB (z : Fin 8) (v : Option Supply) : (s.setSupply z v).sourceB = s.sourceB := rfl
@[simp] theorem setSupply_split (z : Fin 8) (v : Option Supply) : (s.setSupply z v).split = s.split := rfl
@[simp] theorem setSupply_lamps (z : Fin 8) (v : Option Supply) : (s.setSupply z v).lamps = s.lamps := rfl
@[simp] theorem setSupply_mode (z : Fin 8) (v : Option Supply) : (s.setSupply z v).mode = s.mode := rfl
@[simp] theorem setSupply_dormantPending (z : Fin 8) (v : Option Supply) : (s.setSupply z v).dormantPending = s.dormantPending := rfl
@[simp] theorem setSupply_watch (z : Fin 8) (v : Option Supply) : (s.setSupply z v).watch = s.watch := rfl
@[simp] theorem setSupply_inputs (z : Fin 8) (v : Option Supply) : (s.setSupply z v).inputs = s.inputs := rfl
@[simp] theorem setSupply_freeCount (z : Fin 8) (v : Option Supply) : (s.setSupply z v).freeCount = s.freeCount := rfl

/-! ### setInput -/

@[simp] theorem setInput_pending (i : Fin 8) (v : InputLine) : (s.setInput i v).pending = s.pending := rfl
@[simp] theorem setInput_trunkAddr (i : Fin 8) (v : InputLine) : (s.setInput i v).trunkAddr = s.trunkAddr := rfl
@[simp] theorem setInput_runState (i : Fin 8) (v : InputLine) : (s.setInput i v).runState = s.runState := rfl
@[simp] theorem setInput_silence (i : Fin 8) (v : InputLine) : (s.setInput i v).silence = s.silence := rfl
@[simp] theorem setInput_protocolError (i : Fin 8) (v : InputLine) : (s.setInput i v).protocolError = s.protocolError := rfl
@[simp] theorem setInput_trunkCrc (i : Fin 8) (v : InputLine) : (s.setInput i v).trunkCrc = s.trunkCrc := rfl
@[simp] theorem setInput_tx (i : Fin 8) (v : InputLine) : (s.setInput i v).tx = s.tx := rfl
@[simp] theorem setInput_latched (i : Fin 8) (v : InputLine) : (s.setInput i v).latched = s.latched := rfl
@[simp] theorem setInput_noticeSeq (i : Fin 8) (v : InputLine) : (s.setInput i v).noticeSeq = s.noticeSeq := rfl
@[simp] theorem setInput_upstream (i : Fin 8) (v : InputLine) : (s.setInput i v).upstream = s.upstream := rfl
@[simp] theorem setInput_overrun (i : Fin 8) (v : InputLine) : (s.setInput i v).overrun = s.overrun := rfl
@[simp] theorem setInput_clamps (i : Fin 8) (v : InputLine) : (s.setInput i v).clamps = s.clamps := rfl
@[simp] theorem setInput_echoes (i : Fin 8) (v : InputLine) : (s.setInput i v).echoes = s.echoes := rfl
@[simp] theorem setInput_segs (i : Fin 8) (v : InputLine) : (s.setInput i v).segs = s.segs := rfl
@[simp] theorem setInput_banks (i : Fin 8) (v : InputLine) : (s.setInput i v).banks = s.banks := rfl
@[simp] theorem setInput_load (i : Fin 8) (v : InputLine) : (s.setInput i v).load = s.load := rfl
@[simp] theorem setInput_active (i : Fin 8) (v : InputLine) : (s.setInput i v).active = s.active := rfl
@[simp] theorem setInput_table (i : Fin 8) (v : InputLine) : (s.setInput i v).table = s.table := rfl
@[simp] theorem setInput_zones (i : Fin 8) (v : InputLine) : (s.setInput i v).zones = s.zones := rfl
@[simp] theorem setInput_outdoor (i : Fin 8) (v : InputLine) : (s.setInput i v).outdoor = s.outdoor := rfl
@[simp] theorem setInput_capacity (i : Fin 8) (v : InputLine) : (s.setInput i v).capacity = s.capacity := rfl
@[simp] theorem setInput_priority (i : Fin 8) (v : InputLine) : (s.setInput i v).priority = s.priority := rfl
@[simp] theorem setInput_covers (i : Fin 8) (v : InputLine) : (s.setInput i v).covers = s.covers := rfl
@[simp] theorem setInput_palette (i : Fin 8) (v : InputLine) : (s.setInput i v).palette = s.palette := rfl
@[simp] theorem setInput_loops (i : Fin 8) (v : InputLine) : (s.setInput i v).loops = s.loops := rfl
@[simp] theorem setInput_sourceA (i : Fin 8) (v : InputLine) : (s.setInput i v).sourceA = s.sourceA := rfl
@[simp] theorem setInput_sourceB (i : Fin 8) (v : InputLine) : (s.setInput i v).sourceB = s.sourceB := rfl
@[simp] theorem setInput_split (i : Fin 8) (v : InputLine) : (s.setInput i v).split = s.split := rfl
@[simp] theorem setInput_lamps (i : Fin 8) (v : InputLine) : (s.setInput i v).lamps = s.lamps := rfl
@[simp] theorem setInput_supplies (i : Fin 8) (v : InputLine) : (s.setInput i v).supplies = s.supplies := rfl
@[simp] theorem setInput_mode (i : Fin 8) (v : InputLine) : (s.setInput i v).mode = s.mode := rfl
@[simp] theorem setInput_dormantPending (i : Fin 8) (v : InputLine) : (s.setInput i v).dormantPending = s.dormantPending := rfl
@[simp] theorem setInput_watch (i : Fin 8) (v : InputLine) : (s.setInput i v).watch = s.watch := rfl
@[simp] theorem setInput_freeCount (i : Fin 8) (v : InputLine) : (s.setInput i v).freeCount = s.freeCount := rfl

/-! ### setLoop -/

@[simp] theorem setLoop_pending (l : Fin 4) (v : Loop) : (s.setLoop l v).pending = s.pending := rfl
@[simp] theorem setLoop_trunkAddr (l : Fin 4) (v : Loop) : (s.setLoop l v).trunkAddr = s.trunkAddr := rfl
@[simp] theorem setLoop_runState (l : Fin 4) (v : Loop) : (s.setLoop l v).runState = s.runState := rfl
@[simp] theorem setLoop_silence (l : Fin 4) (v : Loop) : (s.setLoop l v).silence = s.silence := rfl
@[simp] theorem setLoop_protocolError (l : Fin 4) (v : Loop) : (s.setLoop l v).protocolError = s.protocolError := rfl
@[simp] theorem setLoop_trunkCrc (l : Fin 4) (v : Loop) : (s.setLoop l v).trunkCrc = s.trunkCrc := rfl
@[simp] theorem setLoop_tx (l : Fin 4) (v : Loop) : (s.setLoop l v).tx = s.tx := rfl
@[simp] theorem setLoop_latched (l : Fin 4) (v : Loop) : (s.setLoop l v).latched = s.latched := rfl
@[simp] theorem setLoop_noticeSeq (l : Fin 4) (v : Loop) : (s.setLoop l v).noticeSeq = s.noticeSeq := rfl
@[simp] theorem setLoop_upstream (l : Fin 4) (v : Loop) : (s.setLoop l v).upstream = s.upstream := rfl
@[simp] theorem setLoop_overrun (l : Fin 4) (v : Loop) : (s.setLoop l v).overrun = s.overrun := rfl
@[simp] theorem setLoop_clamps (l : Fin 4) (v : Loop) : (s.setLoop l v).clamps = s.clamps := rfl
@[simp] theorem setLoop_echoes (l : Fin 4) (v : Loop) : (s.setLoop l v).echoes = s.echoes := rfl
@[simp] theorem setLoop_segs (l : Fin 4) (v : Loop) : (s.setLoop l v).segs = s.segs := rfl
@[simp] theorem setLoop_banks (l : Fin 4) (v : Loop) : (s.setLoop l v).banks = s.banks := rfl
@[simp] theorem setLoop_load (l : Fin 4) (v : Loop) : (s.setLoop l v).load = s.load := rfl
@[simp] theorem setLoop_active (l : Fin 4) (v : Loop) : (s.setLoop l v).active = s.active := rfl
@[simp] theorem setLoop_table (l : Fin 4) (v : Loop) : (s.setLoop l v).table = s.table := rfl
@[simp] theorem setLoop_zones (l : Fin 4) (v : Loop) : (s.setLoop l v).zones = s.zones := rfl
@[simp] theorem setLoop_outdoor (l : Fin 4) (v : Loop) : (s.setLoop l v).outdoor = s.outdoor := rfl
@[simp] theorem setLoop_capacity (l : Fin 4) (v : Loop) : (s.setLoop l v).capacity = s.capacity := rfl
@[simp] theorem setLoop_priority (l : Fin 4) (v : Loop) : (s.setLoop l v).priority = s.priority := rfl
@[simp] theorem setLoop_covers (l : Fin 4) (v : Loop) : (s.setLoop l v).covers = s.covers := rfl
@[simp] theorem setLoop_palette (l : Fin 4) (v : Loop) : (s.setLoop l v).palette = s.palette := rfl
@[simp] theorem setLoop_sourceA (l : Fin 4) (v : Loop) : (s.setLoop l v).sourceA = s.sourceA := rfl
@[simp] theorem setLoop_sourceB (l : Fin 4) (v : Loop) : (s.setLoop l v).sourceB = s.sourceB := rfl
@[simp] theorem setLoop_split (l : Fin 4) (v : Loop) : (s.setLoop l v).split = s.split := rfl
@[simp] theorem setLoop_lamps (l : Fin 4) (v : Loop) : (s.setLoop l v).lamps = s.lamps := rfl
@[simp] theorem setLoop_supplies (l : Fin 4) (v : Loop) : (s.setLoop l v).supplies = s.supplies := rfl
@[simp] theorem setLoop_mode (l : Fin 4) (v : Loop) : (s.setLoop l v).mode = s.mode := rfl
@[simp] theorem setLoop_dormantPending (l : Fin 4) (v : Loop) : (s.setLoop l v).dormantPending = s.dormantPending := rfl
@[simp] theorem setLoop_watch (l : Fin 4) (v : Loop) : (s.setLoop l v).watch = s.watch := rfl
@[simp] theorem setLoop_inputs (l : Fin 4) (v : Loop) : (s.setLoop l v).inputs = s.inputs := rfl
@[simp] theorem setLoop_freeCount (l : Fin 4) (v : Loop) : (s.setLoop l v).freeCount = s.freeCount := rfl

/-! ### setSource -/

@[simp] theorem setSource_pending (src : SourceId) (v : Source) : (s.setSource src v).pending = s.pending := by
  cases src <;> rfl
@[simp] theorem setSource_trunkAddr (src : SourceId) (v : Source) : (s.setSource src v).trunkAddr = s.trunkAddr := by
  cases src <;> rfl
@[simp] theorem setSource_runState (src : SourceId) (v : Source) : (s.setSource src v).runState = s.runState := by
  cases src <;> rfl
@[simp] theorem setSource_silence (src : SourceId) (v : Source) : (s.setSource src v).silence = s.silence := by
  cases src <;> rfl
@[simp] theorem setSource_protocolError (src : SourceId) (v : Source) : (s.setSource src v).protocolError = s.protocolError := by
  cases src <;> rfl
@[simp] theorem setSource_trunkCrc (src : SourceId) (v : Source) : (s.setSource src v).trunkCrc = s.trunkCrc := by
  cases src <;> rfl
@[simp] theorem setSource_tx (src : SourceId) (v : Source) : (s.setSource src v).tx = s.tx := by
  cases src <;> rfl
@[simp] theorem setSource_latched (src : SourceId) (v : Source) : (s.setSource src v).latched = s.latched := by
  cases src <;> rfl
@[simp] theorem setSource_noticeSeq (src : SourceId) (v : Source) : (s.setSource src v).noticeSeq = s.noticeSeq := by
  cases src <;> rfl
@[simp] theorem setSource_upstream (src : SourceId) (v : Source) : (s.setSource src v).upstream = s.upstream := by
  cases src <;> rfl
@[simp] theorem setSource_overrun (src : SourceId) (v : Source) : (s.setSource src v).overrun = s.overrun := by
  cases src <;> rfl
@[simp] theorem setSource_clamps (src : SourceId) (v : Source) : (s.setSource src v).clamps = s.clamps := by
  cases src <;> rfl
@[simp] theorem setSource_echoes (src : SourceId) (v : Source) : (s.setSource src v).echoes = s.echoes := by
  cases src <;> rfl
@[simp] theorem setSource_segs (src : SourceId) (v : Source) : (s.setSource src v).segs = s.segs := by
  cases src <;> rfl
@[simp] theorem setSource_banks (src : SourceId) (v : Source) : (s.setSource src v).banks = s.banks := by
  cases src <;> rfl
@[simp] theorem setSource_load (src : SourceId) (v : Source) : (s.setSource src v).load = s.load := by
  cases src <;> rfl
@[simp] theorem setSource_active (src : SourceId) (v : Source) : (s.setSource src v).active = s.active := by
  cases src <;> rfl
@[simp] theorem setSource_table (src : SourceId) (v : Source) : (s.setSource src v).table = s.table := by
  cases src <;> rfl
@[simp] theorem setSource_zones (src : SourceId) (v : Source) : (s.setSource src v).zones = s.zones := by
  cases src <;> rfl
@[simp] theorem setSource_outdoor (src : SourceId) (v : Source) : (s.setSource src v).outdoor = s.outdoor := by
  cases src <;> rfl
@[simp] theorem setSource_capacity (src : SourceId) (v : Source) : (s.setSource src v).capacity = s.capacity := by
  cases src <;> rfl
@[simp] theorem setSource_priority (src : SourceId) (v : Source) : (s.setSource src v).priority = s.priority := by
  cases src <;> rfl
@[simp] theorem setSource_covers (src : SourceId) (v : Source) : (s.setSource src v).covers = s.covers := by
  cases src <;> rfl
@[simp] theorem setSource_palette (src : SourceId) (v : Source) : (s.setSource src v).palette = s.palette := by
  cases src <;> rfl
@[simp] theorem setSource_loops (src : SourceId) (v : Source) : (s.setSource src v).loops = s.loops := by
  cases src <;> rfl
@[simp] theorem setSource_split (src : SourceId) (v : Source) : (s.setSource src v).split = s.split := by
  cases src <;> rfl
@[simp] theorem setSource_lamps (src : SourceId) (v : Source) : (s.setSource src v).lamps = s.lamps := by
  cases src <;> rfl
@[simp] theorem setSource_supplies (src : SourceId) (v : Source) : (s.setSource src v).supplies = s.supplies := by
  cases src <;> rfl
@[simp] theorem setSource_mode (src : SourceId) (v : Source) : (s.setSource src v).mode = s.mode := by
  cases src <;> rfl
@[simp] theorem setSource_dormantPending (src : SourceId) (v : Source) : (s.setSource src v).dormantPending = s.dormantPending := by
  cases src <;> rfl
@[simp] theorem setSource_watch (src : SourceId) (v : Source) : (s.setSource src v).watch = s.watch := by
  cases src <;> rfl
@[simp] theorem setSource_inputs (src : SourceId) (v : Source) : (s.setSource src v).inputs = s.inputs := by
  cases src <;> rfl
@[simp] theorem setSource_freeCount (src : SourceId) (v : Source) : (s.setSource src v).freeCount = s.freeCount := by
  cases src <;> rfl

/-! ### raise -/

@[simp] theorem raise_pending (c : Condition) : (State.raise c s).pending = s.pending := rfl
@[simp] theorem raise_trunkAddr (c : Condition) : (State.raise c s).trunkAddr = s.trunkAddr := rfl
@[simp] theorem raise_runState (c : Condition) : (State.raise c s).runState = s.runState := rfl
@[simp] theorem raise_silence (c : Condition) : (State.raise c s).silence = s.silence := rfl
@[simp] theorem raise_protocolError (c : Condition) : (State.raise c s).protocolError = s.protocolError := rfl
@[simp] theorem raise_trunkCrc (c : Condition) : (State.raise c s).trunkCrc = s.trunkCrc := rfl
@[simp] theorem raise_tx (c : Condition) : (State.raise c s).tx = s.tx := rfl
@[simp] theorem raise_noticeSeq (c : Condition) : (State.raise c s).noticeSeq = s.noticeSeq := rfl
@[simp] theorem raise_upstream (c : Condition) : (State.raise c s).upstream = s.upstream := rfl
@[simp] theorem raise_overrun (c : Condition) : (State.raise c s).overrun = s.overrun := rfl
@[simp] theorem raise_clamps (c : Condition) : (State.raise c s).clamps = s.clamps := rfl
@[simp] theorem raise_echoes (c : Condition) : (State.raise c s).echoes = s.echoes := rfl
@[simp] theorem raise_segs (c : Condition) : (State.raise c s).segs = s.segs := rfl
@[simp] theorem raise_banks (c : Condition) : (State.raise c s).banks = s.banks := rfl
@[simp] theorem raise_load (c : Condition) : (State.raise c s).load = s.load := rfl
@[simp] theorem raise_active (c : Condition) : (State.raise c s).active = s.active := rfl
@[simp] theorem raise_table (c : Condition) : (State.raise c s).table = s.table := rfl
@[simp] theorem raise_zones (c : Condition) : (State.raise c s).zones = s.zones := rfl
@[simp] theorem raise_outdoor (c : Condition) : (State.raise c s).outdoor = s.outdoor := rfl
@[simp] theorem raise_capacity (c : Condition) : (State.raise c s).capacity = s.capacity := rfl
@[simp] theorem raise_priority (c : Condition) : (State.raise c s).priority = s.priority := rfl
@[simp] theorem raise_covers (c : Condition) : (State.raise c s).covers = s.covers := rfl
@[simp] theorem raise_palette (c : Condition) : (State.raise c s).palette = s.palette := rfl
@[simp] theorem raise_loops (c : Condition) : (State.raise c s).loops = s.loops := rfl
@[simp] theorem raise_sourceA (c : Condition) : (State.raise c s).sourceA = s.sourceA := rfl
@[simp] theorem raise_sourceB (c : Condition) : (State.raise c s).sourceB = s.sourceB := rfl
@[simp] theorem raise_split (c : Condition) : (State.raise c s).split = s.split := rfl
@[simp] theorem raise_lamps (c : Condition) : (State.raise c s).lamps = s.lamps := rfl
@[simp] theorem raise_supplies (c : Condition) : (State.raise c s).supplies = s.supplies := rfl
@[simp] theorem raise_mode (c : Condition) : (State.raise c s).mode = s.mode := rfl
@[simp] theorem raise_dormantPending (c : Condition) : (State.raise c s).dormantPending = s.dormantPending := rfl
@[simp] theorem raise_watch (c : Condition) : (State.raise c s).watch = s.watch := rfl
@[simp] theorem raise_inputs (c : Condition) : (State.raise c s).inputs = s.inputs := rfl
@[simp] theorem raise_freeCount (c : Condition) : (State.raise c s).freeCount = s.freeCount := rfl

/-! ### lower -/

@[simp] theorem lower_pending (c : Condition) : (State.lower c s).pending = s.pending := rfl
@[simp] theorem lower_trunkAddr (c : Condition) : (State.lower c s).trunkAddr = s.trunkAddr := rfl
@[simp] theorem lower_runState (c : Condition) : (State.lower c s).runState = s.runState := rfl
@[simp] theorem lower_silence (c : Condition) : (State.lower c s).silence = s.silence := rfl
@[simp] theorem lower_protocolError (c : Condition) : (State.lower c s).protocolError = s.protocolError := rfl
@[simp] theorem lower_trunkCrc (c : Condition) : (State.lower c s).trunkCrc = s.trunkCrc := rfl
@[simp] theorem lower_tx (c : Condition) : (State.lower c s).tx = s.tx := rfl
@[simp] theorem lower_noticeSeq (c : Condition) : (State.lower c s).noticeSeq = s.noticeSeq := rfl
@[simp] theorem lower_upstream (c : Condition) : (State.lower c s).upstream = s.upstream := rfl
@[simp] theorem lower_overrun (c : Condition) : (State.lower c s).overrun = s.overrun := rfl
@[simp] theorem lower_clamps (c : Condition) : (State.lower c s).clamps = s.clamps := rfl
@[simp] theorem lower_echoes (c : Condition) : (State.lower c s).echoes = s.echoes := rfl
@[simp] theorem lower_segs (c : Condition) : (State.lower c s).segs = s.segs := rfl
@[simp] theorem lower_banks (c : Condition) : (State.lower c s).banks = s.banks := rfl
@[simp] theorem lower_load (c : Condition) : (State.lower c s).load = s.load := rfl
@[simp] theorem lower_active (c : Condition) : (State.lower c s).active = s.active := rfl
@[simp] theorem lower_table (c : Condition) : (State.lower c s).table = s.table := rfl
@[simp] theorem lower_zones (c : Condition) : (State.lower c s).zones = s.zones := rfl
@[simp] theorem lower_outdoor (c : Condition) : (State.lower c s).outdoor = s.outdoor := rfl
@[simp] theorem lower_capacity (c : Condition) : (State.lower c s).capacity = s.capacity := rfl
@[simp] theorem lower_priority (c : Condition) : (State.lower c s).priority = s.priority := rfl
@[simp] theorem lower_covers (c : Condition) : (State.lower c s).covers = s.covers := rfl
@[simp] theorem lower_palette (c : Condition) : (State.lower c s).palette = s.palette := rfl
@[simp] theorem lower_loops (c : Condition) : (State.lower c s).loops = s.loops := rfl
@[simp] theorem lower_sourceA (c : Condition) : (State.lower c s).sourceA = s.sourceA := rfl
@[simp] theorem lower_sourceB (c : Condition) : (State.lower c s).sourceB = s.sourceB := rfl
@[simp] theorem lower_split (c : Condition) : (State.lower c s).split = s.split := rfl
@[simp] theorem lower_lamps (c : Condition) : (State.lower c s).lamps = s.lamps := rfl
@[simp] theorem lower_supplies (c : Condition) : (State.lower c s).supplies = s.supplies := rfl
@[simp] theorem lower_mode (c : Condition) : (State.lower c s).mode = s.mode := rfl
@[simp] theorem lower_dormantPending (c : Condition) : (State.lower c s).dormantPending = s.dormantPending := rfl
@[simp] theorem lower_watch (c : Condition) : (State.lower c s).watch = s.watch := rfl
@[simp] theorem lower_inputs (c : Condition) : (State.lower c s).inputs = s.inputs := rfl
@[simp] theorem lower_freeCount (c : Condition) : (State.lower c s).freeCount = s.freeCount := rfl

/-! ### modStatus -/

@[simp] theorem modStatus_pending (id : PointId) (f : PointStatus → PointStatus) : (State.modStatus id f s).pending = s.pending := rfl
@[simp] theorem modStatus_trunkAddr (id : PointId) (f : PointStatus → PointStatus) : (State.modStatus id f s).trunkAddr = s.trunkAddr := rfl
@[simp] theorem modStatus_runState (id : PointId) (f : PointStatus → PointStatus) : (State.modStatus id f s).runState = s.runState := rfl
@[simp] theorem modStatus_silence (id : PointId) (f : PointStatus → PointStatus) : (State.modStatus id f s).silence = s.silence := rfl
@[simp] theorem modStatus_protocolError (id : PointId) (f : PointStatus → PointStatus) : (State.modStatus id f s).protocolError = s.protocolError := rfl
@[simp] theorem modStatus_trunkCrc (id : PointId) (f : PointStatus → PointStatus) : (State.modStatus id f s).trunkCrc = s.trunkCrc := rfl
@[simp] theorem modStatus_tx (id : PointId) (f : PointStatus → PointStatus) : (State.modStatus id f s).tx = s.tx := rfl
@[simp] theorem modStatus_latched (id : PointId) (f : PointStatus → PointStatus) : (State.modStatus id f s).latched = s.latched := rfl
@[simp] theorem modStatus_noticeSeq (id : PointId) (f : PointStatus → PointStatus) : (State.modStatus id f s).noticeSeq = s.noticeSeq := rfl
@[simp] theorem modStatus_upstream (id : PointId) (f : PointStatus → PointStatus) : (State.modStatus id f s).upstream = s.upstream := rfl
@[simp] theorem modStatus_overrun (id : PointId) (f : PointStatus → PointStatus) : (State.modStatus id f s).overrun = s.overrun := rfl
@[simp] theorem modStatus_clamps (id : PointId) (f : PointStatus → PointStatus) : (State.modStatus id f s).clamps = s.clamps := rfl
@[simp] theorem modStatus_echoes (id : PointId) (f : PointStatus → PointStatus) : (State.modStatus id f s).echoes = s.echoes := rfl
@[simp] theorem modStatus_segs (id : PointId) (f : PointStatus → PointStatus) : (State.modStatus id f s).segs = s.segs := rfl
@[simp] theorem modStatus_banks (id : PointId) (f : PointStatus → PointStatus) : (State.modStatus id f s).banks = s.banks := rfl
@[simp] theorem modStatus_load (id : PointId) (f : PointStatus → PointStatus) : (State.modStatus id f s).load = s.load := rfl
@[simp] theorem modStatus_active (id : PointId) (f : PointStatus → PointStatus) : (State.modStatus id f s).active = s.active := rfl
@[simp] theorem modStatus_zones (id : PointId) (f : PointStatus → PointStatus) : (State.modStatus id f s).zones = s.zones := rfl
@[simp] theorem modStatus_outdoor (id : PointId) (f : PointStatus → PointStatus) : (State.modStatus id f s).outdoor = s.outdoor := rfl
@[simp] theorem modStatus_capacity (id : PointId) (f : PointStatus → PointStatus) : (State.modStatus id f s).capacity = s.capacity := rfl
@[simp] theorem modStatus_priority (id : PointId) (f : PointStatus → PointStatus) : (State.modStatus id f s).priority = s.priority := rfl
@[simp] theorem modStatus_covers (id : PointId) (f : PointStatus → PointStatus) : (State.modStatus id f s).covers = s.covers := rfl
@[simp] theorem modStatus_palette (id : PointId) (f : PointStatus → PointStatus) : (State.modStatus id f s).palette = s.palette := rfl
@[simp] theorem modStatus_loops (id : PointId) (f : PointStatus → PointStatus) : (State.modStatus id f s).loops = s.loops := rfl
@[simp] theorem modStatus_sourceA (id : PointId) (f : PointStatus → PointStatus) : (State.modStatus id f s).sourceA = s.sourceA := rfl
@[simp] theorem modStatus_sourceB (id : PointId) (f : PointStatus → PointStatus) : (State.modStatus id f s).sourceB = s.sourceB := rfl
@[simp] theorem modStatus_split (id : PointId) (f : PointStatus → PointStatus) : (State.modStatus id f s).split = s.split := rfl
@[simp] theorem modStatus_lamps (id : PointId) (f : PointStatus → PointStatus) : (State.modStatus id f s).lamps = s.lamps := rfl
@[simp] theorem modStatus_supplies (id : PointId) (f : PointStatus → PointStatus) : (State.modStatus id f s).supplies = s.supplies := rfl
@[simp] theorem modStatus_mode (id : PointId) (f : PointStatus → PointStatus) : (State.modStatus id f s).mode = s.mode := rfl
@[simp] theorem modStatus_dormantPending (id : PointId) (f : PointStatus → PointStatus) : (State.modStatus id f s).dormantPending = s.dormantPending := rfl
@[simp] theorem modStatus_watch (id : PointId) (f : PointStatus → PointStatus) : (State.modStatus id f s).watch = s.watch := rfl
@[simp] theorem modStatus_inputs (id : PointId) (f : PointStatus → PointStatus) : (State.modStatus id f s).inputs = s.inputs := rfl
@[simp] theorem modStatus_freeCount (id : PointId) (f : PointStatus → PointStatus) : (State.modStatus id f s).freeCount = s.freeCount := rfl

/-! ### modLamp -/

@[simp] theorem modLamp_pending (id : PointId) (f : Lamp → Lamp) : (State.modLamp id f s).pending = s.pending := rfl
@[simp] theorem modLamp_trunkAddr (id : PointId) (f : Lamp → Lamp) : (State.modLamp id f s).trunkAddr = s.trunkAddr := rfl
@[simp] theorem modLamp_runState (id : PointId) (f : Lamp → Lamp) : (State.modLamp id f s).runState = s.runState := rfl
@[simp] theorem modLamp_silence (id : PointId) (f : Lamp → Lamp) : (State.modLamp id f s).silence = s.silence := rfl
@[simp] theorem modLamp_protocolError (id : PointId) (f : Lamp → Lamp) : (State.modLamp id f s).protocolError = s.protocolError := rfl
@[simp] theorem modLamp_trunkCrc (id : PointId) (f : Lamp → Lamp) : (State.modLamp id f s).trunkCrc = s.trunkCrc := rfl
@[simp] theorem modLamp_tx (id : PointId) (f : Lamp → Lamp) : (State.modLamp id f s).tx = s.tx := rfl
@[simp] theorem modLamp_latched (id : PointId) (f : Lamp → Lamp) : (State.modLamp id f s).latched = s.latched := rfl
@[simp] theorem modLamp_noticeSeq (id : PointId) (f : Lamp → Lamp) : (State.modLamp id f s).noticeSeq = s.noticeSeq := rfl
@[simp] theorem modLamp_upstream (id : PointId) (f : Lamp → Lamp) : (State.modLamp id f s).upstream = s.upstream := rfl
@[simp] theorem modLamp_overrun (id : PointId) (f : Lamp → Lamp) : (State.modLamp id f s).overrun = s.overrun := rfl
@[simp] theorem modLamp_clamps (id : PointId) (f : Lamp → Lamp) : (State.modLamp id f s).clamps = s.clamps := rfl
@[simp] theorem modLamp_echoes (id : PointId) (f : Lamp → Lamp) : (State.modLamp id f s).echoes = s.echoes := rfl
@[simp] theorem modLamp_segs (id : PointId) (f : Lamp → Lamp) : (State.modLamp id f s).segs = s.segs := rfl
@[simp] theorem modLamp_banks (id : PointId) (f : Lamp → Lamp) : (State.modLamp id f s).banks = s.banks := rfl
@[simp] theorem modLamp_load (id : PointId) (f : Lamp → Lamp) : (State.modLamp id f s).load = s.load := rfl
@[simp] theorem modLamp_active (id : PointId) (f : Lamp → Lamp) : (State.modLamp id f s).active = s.active := rfl
@[simp] theorem modLamp_table (id : PointId) (f : Lamp → Lamp) : (State.modLamp id f s).table = s.table := rfl
@[simp] theorem modLamp_zones (id : PointId) (f : Lamp → Lamp) : (State.modLamp id f s).zones = s.zones := rfl
@[simp] theorem modLamp_outdoor (id : PointId) (f : Lamp → Lamp) : (State.modLamp id f s).outdoor = s.outdoor := rfl
@[simp] theorem modLamp_capacity (id : PointId) (f : Lamp → Lamp) : (State.modLamp id f s).capacity = s.capacity := rfl
@[simp] theorem modLamp_priority (id : PointId) (f : Lamp → Lamp) : (State.modLamp id f s).priority = s.priority := rfl
@[simp] theorem modLamp_covers (id : PointId) (f : Lamp → Lamp) : (State.modLamp id f s).covers = s.covers := rfl
@[simp] theorem modLamp_palette (id : PointId) (f : Lamp → Lamp) : (State.modLamp id f s).palette = s.palette := rfl
@[simp] theorem modLamp_loops (id : PointId) (f : Lamp → Lamp) : (State.modLamp id f s).loops = s.loops := rfl
@[simp] theorem modLamp_sourceA (id : PointId) (f : Lamp → Lamp) : (State.modLamp id f s).sourceA = s.sourceA := rfl
@[simp] theorem modLamp_sourceB (id : PointId) (f : Lamp → Lamp) : (State.modLamp id f s).sourceB = s.sourceB := rfl
@[simp] theorem modLamp_split (id : PointId) (f : Lamp → Lamp) : (State.modLamp id f s).split = s.split := rfl
@[simp] theorem modLamp_supplies (id : PointId) (f : Lamp → Lamp) : (State.modLamp id f s).supplies = s.supplies := rfl
@[simp] theorem modLamp_mode (id : PointId) (f : Lamp → Lamp) : (State.modLamp id f s).mode = s.mode := rfl
@[simp] theorem modLamp_dormantPending (id : PointId) (f : Lamp → Lamp) : (State.modLamp id f s).dormantPending = s.dormantPending := rfl
@[simp] theorem modLamp_watch (id : PointId) (f : Lamp → Lamp) : (State.modLamp id f s).watch = s.watch := rfl
@[simp] theorem modLamp_inputs (id : PointId) (f : Lamp → Lamp) : (State.modLamp id f s).inputs = s.inputs := rfl
@[simp] theorem modLamp_freeCount (id : PointId) (f : Lamp → Lamp) : (State.modLamp id f s).freeCount = s.freeCount := rfl

/-! ### Reading after writing -/

@[simp] theorem zone_setZone_self (z : Fin 8) (v : Zone) : (s.setZone z v).zone z = v := by
  simp [State.zone, State.setZone]

theorem zone_setZone (z z' : Fin 8) (v : Zone) :
    (s.setZone z v).zone z' = if z = z' then v else s.zone z' := by
  simp [State.zone, State.setZone, Vector.getElem_set, Fin.ext_iff]

theorem zone_setZone_ne (z z' : Fin 8) (v : Zone) (h : z ≠ z') : (s.setZone z v).zone z' = s.zone z' := by
  simp [zone_setZone, h]

@[simp] theorem cover_setCover_self (c : Fin 6) (v : Cover) : (s.setCover c v).cover c = v := by
  simp [State.cover, State.setCover]

theorem cover_setCover (c c' : Fin 6) (v : Cover) :
    (s.setCover c v).cover c' = if c = c' then v else s.cover c' := by
  simp [State.cover, State.setCover, Vector.getElem_set, Fin.ext_iff]

theorem cover_setCover_ne (c c' : Fin 6) (v : Cover) (h : c ≠ c') : (s.setCover c v).cover c' = s.cover c' := by
  simp [cover_setCover, h]

@[simp] theorem segment_setSegment_self (g : Fin 4) (v : Segment) : (s.setSegment g v).segment g = v := by
  simp [State.segment, State.setSegment]

theorem segment_setSegment (g g' : Fin 4) (v : Segment) :
    (s.setSegment g v).segment g' = if g = g' then v else s.segment g' := by
  simp [State.segment, State.setSegment, Vector.getElem_set, Fin.ext_iff]

theorem segment_setSegment_ne (g g' : Fin 4) (v : Segment) (h : g ≠ g') : (s.setSegment g v).segment g' = s.segment g' := by
  simp [segment_setSegment, h]

@[simp] theorem bank_setBank_self (b : Fin 2) (v : Bank) : (s.setBank b v).bank b = v := by
  simp [State.bank, State.setBank]

theorem bank_setBank (b b' : Fin 2) (v : Bank) :
    (s.setBank b v).bank b' = if b = b' then v else s.bank b' := by
  simp [State.bank, State.setBank, Vector.getElem_set, Fin.ext_iff]

theorem bank_setBank_ne (b b' : Fin 2) (v : Bank) (h : b ≠ b') : (s.setBank b v).bank b' = s.bank b' := by
  simp [bank_setBank, h]

@[simp] theorem supply_setSupply_self (z : Fin 8) (v : Option Supply) : (s.setSupply z v).supply z = v := by
  simp [State.supply, State.setSupply]

theorem supply_setSupply (z z' : Fin 8) (v : Option Supply) :
    (s.setSupply z v).supply z' = if z = z' then v else s.supply z' := by
  simp [State.supply, State.setSupply, Vector.getElem_set, Fin.ext_iff]

theorem supply_setSupply_ne (z z' : Fin 8) (v : Option Supply) (h : z ≠ z') : (s.setSupply z v).supply z' = s.supply z' := by
  simp [supply_setSupply, h]

@[simp] theorem input_setInput_self (i : Fin 8) (v : InputLine) : (s.setInput i v).input i = v := by
  simp [State.input, State.setInput]

theorem input_setInput (i i' : Fin 8) (v : InputLine) :
    (s.setInput i v).input i' = if i = i' then v else s.input i' := by
  simp [State.input, State.setInput, Vector.getElem_set, Fin.ext_iff]

theorem input_setInput_ne (i i' : Fin 8) (v : InputLine) (h : i ≠ i') : (s.setInput i v).input i' = s.input i' := by
  simp [input_setInput, h]

@[simp] theorem loop_setLoop_self (l : Fin 4) (v : Loop) : (s.setLoop l v).loop l = v := by
  simp [State.loop, State.setLoop]

theorem loop_setLoop (l l' : Fin 4) (v : Loop) :
    (s.setLoop l v).loop l' = if l = l' then v else s.loop l' := by
  simp [State.loop, State.setLoop, Vector.getElem_set, Fin.ext_iff]

theorem loop_setLoop_ne (l l' : Fin 4) (v : Loop) (h : l ≠ l') : (s.setLoop l v).loop l' = s.loop l' := by
  simp [loop_setLoop, h]

@[simp] theorem source_setSource_self (src : SourceId) (v : Source) : (s.setSource src v).source src = v := by
  cases src <;> rfl

theorem source_setSource_ne (src other : SourceId) (v : Source) (h : src ≠ other) :
    (s.setSource src v).source other = s.source other := by
  cases src <;> cases other <;> first | rfl | exact absurd rfl h

/-! ### Reads that an update leaves alone -/

@[simp] theorem cover_setZone (z : Fin 8) (v : Zone) (c' : Fin 6) : (s.setZone z v).cover c' = s.cover c' := rfl
@[simp] theorem segment_setZone (z : Fin 8) (v : Zone) (g' : Fin 4) : (s.setZone z v).segment g' = s.segment g' := rfl
@[simp] theorem bank_setZone (z : Fin 8) (v : Zone) (b' : Fin 2) : (s.setZone z v).bank b' = s.bank b' := rfl
@[simp] theorem supply_setZone (z : Fin 8) (v : Zone) (z' : Fin 8) : (s.setZone z v).supply z' = s.supply z' := rfl
@[simp] theorem input_setZone (z : Fin 8) (v : Zone) (i' : Fin 8) : (s.setZone z v).input i' = s.input i' := rfl
@[simp] theorem loop_setZone (z : Fin 8) (v : Zone) (l' : Fin 4) : (s.setZone z v).loop l' = s.loop l' := rfl
@[simp] theorem source_setZone (z : Fin 8) (v : Zone) (r' : SourceId) : (s.setZone z v).source r' = s.source r' := rfl
@[simp] theorem status_setZone (z : Fin 8) (v : Zone) (p' : PointId) : (s.setZone z v).status p' = s.status p' := rfl
@[simp] theorem lamp_setZone (z : Fin 8) (v : Zone) (p' : PointId) : (s.setZone z v).lamp p' = s.lamp p' := rfl
@[simp] theorem records_setZone (z : Fin 8) (v : Zone) : (s.setZone z v).records = s.records := rfl
@[simp] theorem point_setZone (z : Fin 8) (v : Zone) (p' : PointId) : (s.setZone z v).point p' = s.point p' := rfl
@[simp] theorem zoneRec_setZone (z : Fin 8) (v : Zone) (z' : Fin 8) : (s.setZone z v).zoneRec z' = s.zoneRec z' := rfl
@[simp] theorem coverRec_setZone (z : Fin 8) (v : Zone) (c' : Fin 6) : (s.setZone z v).coverRec c' = s.coverRec c' := rfl
@[simp] theorem inputRec_setZone (z : Fin 8) (v : Zone) (i' : Fin 8) : (s.setZone z v).inputRec i' = s.inputRec i' := rfl
@[simp] theorem evacuating_setZone (z : Fin 8) (v : Zone) : (s.setZone z v).evacuating = s.evacuating := rfl
@[simp] theorem zone_setCover (c : Fin 6) (v : Cover) (z' : Fin 8) : (s.setCover c v).zone z' = s.zone z' := rfl
@[simp] theorem segment_setCover (c : Fin 6) (v : Cover) (g' : Fin 4) : (s.setCover c v).segment g' = s.segment g' := rfl
@[simp] theorem bank_setCover (c : Fin 6) (v : Cover) (b' : Fin 2) : (s.setCover c v).bank b' = s.bank b' := rfl
@[simp] theorem supply_setCover (c : Fin 6) (v : Cover) (z' : Fin 8) : (s.setCover c v).supply z' = s.supply z' := rfl
@[simp] theorem input_setCover (c : Fin 6) (v : Cover) (i' : Fin 8) : (s.setCover c v).input i' = s.input i' := rfl
@[simp] theorem loop_setCover (c : Fin 6) (v : Cover) (l' : Fin 4) : (s.setCover c v).loop l' = s.loop l' := rfl
@[simp] theorem source_setCover (c : Fin 6) (v : Cover) (r' : SourceId) : (s.setCover c v).source r' = s.source r' := rfl
@[simp] theorem status_setCover (c : Fin 6) (v : Cover) (p' : PointId) : (s.setCover c v).status p' = s.status p' := rfl
@[simp] theorem lamp_setCover (c : Fin 6) (v : Cover) (p' : PointId) : (s.setCover c v).lamp p' = s.lamp p' := rfl
@[simp] theorem records_setCover (c : Fin 6) (v : Cover) : (s.setCover c v).records = s.records := rfl
@[simp] theorem point_setCover (c : Fin 6) (v : Cover) (p' : PointId) : (s.setCover c v).point p' = s.point p' := rfl
@[simp] theorem zoneRec_setCover (c : Fin 6) (v : Cover) (z' : Fin 8) : (s.setCover c v).zoneRec z' = s.zoneRec z' := rfl
@[simp] theorem coverRec_setCover (c : Fin 6) (v : Cover) (c' : Fin 6) : (s.setCover c v).coverRec c' = s.coverRec c' := rfl
@[simp] theorem inputRec_setCover (c : Fin 6) (v : Cover) (i' : Fin 8) : (s.setCover c v).inputRec i' = s.inputRec i' := rfl
@[simp] theorem evacuating_setCover (c : Fin 6) (v : Cover) : (s.setCover c v).evacuating = s.evacuating := rfl
@[simp] theorem zone_setSegment (g : Fin 4) (v : Segment) (z' : Fin 8) : (s.setSegment g v).zone z' = s.zone z' := rfl
@[simp] theorem cover_setSegment (g : Fin 4) (v : Segment) (c' : Fin 6) : (s.setSegment g v).cover c' = s.cover c' := rfl
@[simp] theorem bank_setSegment (g : Fin 4) (v : Segment) (b' : Fin 2) : (s.setSegment g v).bank b' = s.bank b' := rfl
@[simp] theorem supply_setSegment (g : Fin 4) (v : Segment) (z' : Fin 8) : (s.setSegment g v).supply z' = s.supply z' := rfl
@[simp] theorem input_setSegment (g : Fin 4) (v : Segment) (i' : Fin 8) : (s.setSegment g v).input i' = s.input i' := rfl
@[simp] theorem loop_setSegment (g : Fin 4) (v : Segment) (l' : Fin 4) : (s.setSegment g v).loop l' = s.loop l' := rfl
@[simp] theorem source_setSegment (g : Fin 4) (v : Segment) (r' : SourceId) : (s.setSegment g v).source r' = s.source r' := rfl
@[simp] theorem status_setSegment (g : Fin 4) (v : Segment) (p' : PointId) : (s.setSegment g v).status p' = s.status p' := rfl
@[simp] theorem lamp_setSegment (g : Fin 4) (v : Segment) (p' : PointId) : (s.setSegment g v).lamp p' = s.lamp p' := rfl
@[simp] theorem records_setSegment (g : Fin 4) (v : Segment) : (s.setSegment g v).records = s.records := rfl
@[simp] theorem point_setSegment (g : Fin 4) (v : Segment) (p' : PointId) : (s.setSegment g v).point p' = s.point p' := rfl
@[simp] theorem zoneRec_setSegment (g : Fin 4) (v : Segment) (z' : Fin 8) : (s.setSegment g v).zoneRec z' = s.zoneRec z' := rfl
@[simp] theorem coverRec_setSegment (g : Fin 4) (v : Segment) (c' : Fin 6) : (s.setSegment g v).coverRec c' = s.coverRec c' := rfl
@[simp] theorem inputRec_setSegment (g : Fin 4) (v : Segment) (i' : Fin 8) : (s.setSegment g v).inputRec i' = s.inputRec i' := rfl
@[simp] theorem evacuating_setSegment (g : Fin 4) (v : Segment) : (s.setSegment g v).evacuating = s.evacuating := rfl
@[simp] theorem zone_setBank (b : Fin 2) (v : Bank) (z' : Fin 8) : (s.setBank b v).zone z' = s.zone z' := rfl
@[simp] theorem cover_setBank (b : Fin 2) (v : Bank) (c' : Fin 6) : (s.setBank b v).cover c' = s.cover c' := rfl
@[simp] theorem segment_setBank (b : Fin 2) (v : Bank) (g' : Fin 4) : (s.setBank b v).segment g' = s.segment g' := rfl
@[simp] theorem supply_setBank (b : Fin 2) (v : Bank) (z' : Fin 8) : (s.setBank b v).supply z' = s.supply z' := rfl
@[simp] theorem input_setBank (b : Fin 2) (v : Bank) (i' : Fin 8) : (s.setBank b v).input i' = s.input i' := rfl
@[simp] theorem loop_setBank (b : Fin 2) (v : Bank) (l' : Fin 4) : (s.setBank b v).loop l' = s.loop l' := rfl
@[simp] theorem source_setBank (b : Fin 2) (v : Bank) (r' : SourceId) : (s.setBank b v).source r' = s.source r' := rfl
@[simp] theorem status_setBank (b : Fin 2) (v : Bank) (p' : PointId) : (s.setBank b v).status p' = s.status p' := rfl
@[simp] theorem lamp_setBank (b : Fin 2) (v : Bank) (p' : PointId) : (s.setBank b v).lamp p' = s.lamp p' := rfl
@[simp] theorem evacuating_setBank (b : Fin 2) (v : Bank) : (s.setBank b v).evacuating = s.evacuating := rfl
@[simp] theorem zone_setSupply (z : Fin 8) (v : Option Supply) (z' : Fin 8) : (s.setSupply z v).zone z' = s.zone z' := rfl
@[simp] theorem cover_setSupply (z : Fin 8) (v : Option Supply) (c' : Fin 6) : (s.setSupply z v).cover c' = s.cover c' := rfl
@[simp] theorem segment_setSupply (z : Fin 8) (v : Option Supply) (g' : Fin 4) : (s.setSupply z v).segment g' = s.segment g' := rfl
@[simp] theorem bank_setSupply (z : Fin 8) (v : Option Supply) (b' : Fin 2) : (s.setSupply z v).bank b' = s.bank b' := rfl
@[simp] theorem input_setSupply (z : Fin 8) (v : Option Supply) (i' : Fin 8) : (s.setSupply z v).input i' = s.input i' := rfl
@[simp] theorem loop_setSupply (z : Fin 8) (v : Option Supply) (l' : Fin 4) : (s.setSupply z v).loop l' = s.loop l' := rfl
@[simp] theorem source_setSupply (z : Fin 8) (v : Option Supply) (r' : SourceId) : (s.setSupply z v).source r' = s.source r' := rfl
@[simp] theorem status_setSupply (z : Fin 8) (v : Option Supply) (p' : PointId) : (s.setSupply z v).status p' = s.status p' := rfl
@[simp] theorem lamp_setSupply (z : Fin 8) (v : Option Supply) (p' : PointId) : (s.setSupply z v).lamp p' = s.lamp p' := rfl
@[simp] theorem records_setSupply (z : Fin 8) (v : Option Supply) : (s.setSupply z v).records = s.records := rfl
@[simp] theorem point_setSupply (z : Fin 8) (v : Option Supply) (p' : PointId) : (s.setSupply z v).point p' = s.point p' := rfl
@[simp] theorem zoneRec_setSupply (z : Fin 8) (v : Option Supply) (z' : Fin 8) : (s.setSupply z v).zoneRec z' = s.zoneRec z' := rfl
@[simp] theorem coverRec_setSupply (z : Fin 8) (v : Option Supply) (c' : Fin 6) : (s.setSupply z v).coverRec c' = s.coverRec c' := rfl
@[simp] theorem inputRec_setSupply (z : Fin 8) (v : Option Supply) (i' : Fin 8) : (s.setSupply z v).inputRec i' = s.inputRec i' := rfl
@[simp] theorem evacuating_setSupply (z : Fin 8) (v : Option Supply) : (s.setSupply z v).evacuating = s.evacuating := rfl
@[simp] theorem zone_setInput (i : Fin 8) (v : InputLine) (z' : Fin 8) : (s.setInput i v).zone z' = s.zone z' := rfl
@[simp] theorem cover_setInput (i : Fin 8) (v : InputLine) (c' : Fin 6) : (s.setInput i v).cover c' = s.cover c' := rfl
@[simp] theorem segment_setInput (i : Fin 8) (v : InputLine) (g' : Fin 4) : (s.setInput i v).segment g' = s.segment g' := rfl
@[simp] theorem bank_setInput (i : Fin 8) (v : InputLine) (b' : Fin 2) : (s.setInput i v).bank b' = s.bank b' := rfl
@[simp] theorem supply_setInput (i : Fin 8) (v : InputLine) (z' : Fin 8) : (s.setInput i v).supply z' = s.supply z' := rfl
@[simp] theorem loop_setInput (i : Fin 8) (v : InputLine) (l' : Fin 4) : (s.setInput i v).loop l' = s.loop l' := rfl
@[simp] theorem source_setInput (i : Fin 8) (v : InputLine) (r' : SourceId) : (s.setInput i v).source r' = s.source r' := rfl
@[simp] theorem status_setInput (i : Fin 8) (v : InputLine) (p' : PointId) : (s.setInput i v).status p' = s.status p' := rfl
@[simp] theorem lamp_setInput (i : Fin 8) (v : InputLine) (p' : PointId) : (s.setInput i v).lamp p' = s.lamp p' := rfl
@[simp] theorem records_setInput (i : Fin 8) (v : InputLine) : (s.setInput i v).records = s.records := rfl
@[simp] theorem point_setInput (i : Fin 8) (v : InputLine) (p' : PointId) : (s.setInput i v).point p' = s.point p' := rfl
@[simp] theorem zoneRec_setInput (i : Fin 8) (v : InputLine) (z' : Fin 8) : (s.setInput i v).zoneRec z' = s.zoneRec z' := rfl
@[simp] theorem coverRec_setInput (i : Fin 8) (v : InputLine) (c' : Fin 6) : (s.setInput i v).coverRec c' = s.coverRec c' := rfl
@[simp] theorem inputRec_setInput (i : Fin 8) (v : InputLine) (i' : Fin 8) : (s.setInput i v).inputRec i' = s.inputRec i' := rfl
@[simp] theorem zone_setLoop (l : Fin 4) (v : Loop) (z' : Fin 8) : (s.setLoop l v).zone z' = s.zone z' := rfl
@[simp] theorem cover_setLoop (l : Fin 4) (v : Loop) (c' : Fin 6) : (s.setLoop l v).cover c' = s.cover c' := rfl
@[simp] theorem segment_setLoop (l : Fin 4) (v : Loop) (g' : Fin 4) : (s.setLoop l v).segment g' = s.segment g' := rfl
@[simp] theorem bank_setLoop (l : Fin 4) (v : Loop) (b' : Fin 2) : (s.setLoop l v).bank b' = s.bank b' := rfl
@[simp] theorem supply_setLoop (l : Fin 4) (v : Loop) (z' : Fin 8) : (s.setLoop l v).supply z' = s.supply z' := rfl
@[simp] theorem input_setLoop (l : Fin 4) (v : Loop) (i' : Fin 8) : (s.setLoop l v).input i' = s.input i' := rfl
@[simp] theorem source_setLoop (l : Fin 4) (v : Loop) (r' : SourceId) : (s.setLoop l v).source r' = s.source r' := rfl
@[simp] theorem status_setLoop (l : Fin 4) (v : Loop) (p' : PointId) : (s.setLoop l v).status p' = s.status p' := rfl
@[simp] theorem lamp_setLoop (l : Fin 4) (v : Loop) (p' : PointId) : (s.setLoop l v).lamp p' = s.lamp p' := rfl
@[simp] theorem records_setLoop (l : Fin 4) (v : Loop) : (s.setLoop l v).records = s.records := rfl
@[simp] theorem point_setLoop (l : Fin 4) (v : Loop) (p' : PointId) : (s.setLoop l v).point p' = s.point p' := rfl
@[simp] theorem zoneRec_setLoop (l : Fin 4) (v : Loop) (z' : Fin 8) : (s.setLoop l v).zoneRec z' = s.zoneRec z' := rfl
@[simp] theorem coverRec_setLoop (l : Fin 4) (v : Loop) (c' : Fin 6) : (s.setLoop l v).coverRec c' = s.coverRec c' := rfl
@[simp] theorem inputRec_setLoop (l : Fin 4) (v : Loop) (i' : Fin 8) : (s.setLoop l v).inputRec i' = s.inputRec i' := rfl
@[simp] theorem evacuating_setLoop (l : Fin 4) (v : Loop) : (s.setLoop l v).evacuating = s.evacuating := rfl
@[simp] theorem zone_setSource (src : SourceId) (v : Source) (z' : Fin 8) : (s.setSource src v).zone z' = s.zone z' := by cases src <;> rfl
@[simp] theorem cover_setSource (src : SourceId) (v : Source) (c' : Fin 6) : (s.setSource src v).cover c' = s.cover c' := by cases src <;> rfl
@[simp] theorem segment_setSource (src : SourceId) (v : Source) (g' : Fin 4) : (s.setSource src v).segment g' = s.segment g' := by cases src <;> rfl
@[simp] theorem bank_setSource (src : SourceId) (v : Source) (b' : Fin 2) : (s.setSource src v).bank b' = s.bank b' := by cases src <;> rfl
@[simp] theorem supply_setSource (src : SourceId) (v : Source) (z' : Fin 8) : (s.setSource src v).supply z' = s.supply z' := by cases src <;> rfl
@[simp] theorem input_setSource (src : SourceId) (v : Source) (i' : Fin 8) : (s.setSource src v).input i' = s.input i' := by cases src <;> rfl
@[simp] theorem loop_setSource (src : SourceId) (v : Source) (l' : Fin 4) : (s.setSource src v).loop l' = s.loop l' := by cases src <;> rfl
@[simp] theorem status_setSource (src : SourceId) (v : Source) (p' : PointId) : (s.setSource src v).status p' = s.status p' := by cases src <;> rfl
@[simp] theorem lamp_setSource (src : SourceId) (v : Source) (p' : PointId) : (s.setSource src v).lamp p' = s.lamp p' := by cases src <;> rfl
@[simp] theorem records_setSource (src : SourceId) (v : Source) : (s.setSource src v).records = s.records := by cases src <;> rfl
@[simp] theorem point_setSource (src : SourceId) (v : Source) (p' : PointId) : (s.setSource src v).point p' = s.point p' := by cases src <;> rfl
@[simp] theorem zoneRec_setSource (src : SourceId) (v : Source) (z' : Fin 8) : (s.setSource src v).zoneRec z' = s.zoneRec z' := by cases src <;> rfl
@[simp] theorem coverRec_setSource (src : SourceId) (v : Source) (c' : Fin 6) : (s.setSource src v).coverRec c' = s.coverRec c' := by cases src <;> rfl
@[simp] theorem inputRec_setSource (src : SourceId) (v : Source) (i' : Fin 8) : (s.setSource src v).inputRec i' = s.inputRec i' := by cases src <;> rfl
@[simp] theorem evacuating_setSource (src : SourceId) (v : Source) : (s.setSource src v).evacuating = s.evacuating := by cases src <;> rfl
@[simp] theorem zone_raise (c : Condition) (z' : Fin 8) : (State.raise c s).zone z' = s.zone z' := rfl
@[simp] theorem cover_raise (c : Condition) (c' : Fin 6) : (State.raise c s).cover c' = s.cover c' := rfl
@[simp] theorem segment_raise (c : Condition) (g' : Fin 4) : (State.raise c s).segment g' = s.segment g' := rfl
@[simp] theorem bank_raise (c : Condition) (b' : Fin 2) : (State.raise c s).bank b' = s.bank b' := rfl
@[simp] theorem supply_raise (c : Condition) (z' : Fin 8) : (State.raise c s).supply z' = s.supply z' := rfl
@[simp] theorem input_raise (c : Condition) (i' : Fin 8) : (State.raise c s).input i' = s.input i' := rfl
@[simp] theorem loop_raise (c : Condition) (l' : Fin 4) : (State.raise c s).loop l' = s.loop l' := rfl
@[simp] theorem source_raise (c : Condition) (r' : SourceId) : (State.raise c s).source r' = s.source r' := rfl
@[simp] theorem status_raise (c : Condition) (p' : PointId) : (State.raise c s).status p' = s.status p' := rfl
@[simp] theorem lamp_raise (c : Condition) (p' : PointId) : (State.raise c s).lamp p' = s.lamp p' := rfl
@[simp] theorem records_raise (c : Condition) : (State.raise c s).records = s.records := rfl
@[simp] theorem point_raise (c : Condition) (p' : PointId) : (State.raise c s).point p' = s.point p' := rfl
@[simp] theorem zoneRec_raise (c : Condition) (z' : Fin 8) : (State.raise c s).zoneRec z' = s.zoneRec z' := rfl
@[simp] theorem coverRec_raise (c : Condition) (c' : Fin 6) : (State.raise c s).coverRec c' = s.coverRec c' := rfl
@[simp] theorem inputRec_raise (c : Condition) (i' : Fin 8) : (State.raise c s).inputRec i' = s.inputRec i' := rfl
@[simp] theorem evacuating_raise (c : Condition) : (State.raise c s).evacuating = s.evacuating := rfl
@[simp] theorem zone_lower (c : Condition) (z' : Fin 8) : (State.lower c s).zone z' = s.zone z' := rfl
@[simp] theorem cover_lower (c : Condition) (c' : Fin 6) : (State.lower c s).cover c' = s.cover c' := rfl
@[simp] theorem segment_lower (c : Condition) (g' : Fin 4) : (State.lower c s).segment g' = s.segment g' := rfl
@[simp] theorem bank_lower (c : Condition) (b' : Fin 2) : (State.lower c s).bank b' = s.bank b' := rfl
@[simp] theorem supply_lower (c : Condition) (z' : Fin 8) : (State.lower c s).supply z' = s.supply z' := rfl
@[simp] theorem input_lower (c : Condition) (i' : Fin 8) : (State.lower c s).input i' = s.input i' := rfl
@[simp] theorem loop_lower (c : Condition) (l' : Fin 4) : (State.lower c s).loop l' = s.loop l' := rfl
@[simp] theorem source_lower (c : Condition) (r' : SourceId) : (State.lower c s).source r' = s.source r' := rfl
@[simp] theorem status_lower (c : Condition) (p' : PointId) : (State.lower c s).status p' = s.status p' := rfl
@[simp] theorem lamp_lower (c : Condition) (p' : PointId) : (State.lower c s).lamp p' = s.lamp p' := rfl
@[simp] theorem records_lower (c : Condition) : (State.lower c s).records = s.records := rfl
@[simp] theorem point_lower (c : Condition) (p' : PointId) : (State.lower c s).point p' = s.point p' := rfl
@[simp] theorem zoneRec_lower (c : Condition) (z' : Fin 8) : (State.lower c s).zoneRec z' = s.zoneRec z' := rfl
@[simp] theorem coverRec_lower (c : Condition) (c' : Fin 6) : (State.lower c s).coverRec c' = s.coverRec c' := rfl
@[simp] theorem inputRec_lower (c : Condition) (i' : Fin 8) : (State.lower c s).inputRec i' = s.inputRec i' := rfl
@[simp] theorem evacuating_lower (c : Condition) : (State.lower c s).evacuating = s.evacuating := rfl
@[simp] theorem zone_modStatus (id : PointId) (f : PointStatus → PointStatus) (z' : Fin 8) : (State.modStatus id f s).zone z' = s.zone z' := rfl
@[simp] theorem cover_modStatus (id : PointId) (f : PointStatus → PointStatus) (c' : Fin 6) : (State.modStatus id f s).cover c' = s.cover c' := rfl
@[simp] theorem segment_modStatus (id : PointId) (f : PointStatus → PointStatus) (g' : Fin 4) : (State.modStatus id f s).segment g' = s.segment g' := rfl
@[simp] theorem bank_modStatus (id : PointId) (f : PointStatus → PointStatus) (b' : Fin 2) : (State.modStatus id f s).bank b' = s.bank b' := rfl
@[simp] theorem supply_modStatus (id : PointId) (f : PointStatus → PointStatus) (z' : Fin 8) : (State.modStatus id f s).supply z' = s.supply z' := rfl
@[simp] theorem input_modStatus (id : PointId) (f : PointStatus → PointStatus) (i' : Fin 8) : (State.modStatus id f s).input i' = s.input i' := rfl
@[simp] theorem loop_modStatus (id : PointId) (f : PointStatus → PointStatus) (l' : Fin 4) : (State.modStatus id f s).loop l' = s.loop l' := rfl
@[simp] theorem source_modStatus (id : PointId) (f : PointStatus → PointStatus) (r' : SourceId) : (State.modStatus id f s).source r' = s.source r' := rfl
@[simp] theorem lamp_modStatus (id : PointId) (f : PointStatus → PointStatus) (p' : PointId) : (State.modStatus id f s).lamp p' = s.lamp p' := rfl
@[simp] theorem records_modStatus (id : PointId) (f : PointStatus → PointStatus) : (State.modStatus id f s).records = s.records := rfl
@[simp] theorem point_modStatus (id : PointId) (f : PointStatus → PointStatus) (p' : PointId) : (State.modStatus id f s).point p' = s.point p' := rfl
@[simp] theorem zoneRec_modStatus (id : PointId) (f : PointStatus → PointStatus) (z' : Fin 8) : (State.modStatus id f s).zoneRec z' = s.zoneRec z' := rfl
@[simp] theorem coverRec_modStatus (id : PointId) (f : PointStatus → PointStatus) (c' : Fin 6) : (State.modStatus id f s).coverRec c' = s.coverRec c' := rfl
@[simp] theorem inputRec_modStatus (id : PointId) (f : PointStatus → PointStatus) (i' : Fin 8) : (State.modStatus id f s).inputRec i' = s.inputRec i' := rfl
@[simp] theorem evacuating_modStatus (id : PointId) (f : PointStatus → PointStatus) : (State.modStatus id f s).evacuating = s.evacuating := rfl
@[simp] theorem zone_modLamp (id : PointId) (f : Lamp → Lamp) (z' : Fin 8) : (State.modLamp id f s).zone z' = s.zone z' := rfl
@[simp] theorem cover_modLamp (id : PointId) (f : Lamp → Lamp) (c' : Fin 6) : (State.modLamp id f s).cover c' = s.cover c' := rfl
@[simp] theorem segment_modLamp (id : PointId) (f : Lamp → Lamp) (g' : Fin 4) : (State.modLamp id f s).segment g' = s.segment g' := rfl
@[simp] theorem bank_modLamp (id : PointId) (f : Lamp → Lamp) (b' : Fin 2) : (State.modLamp id f s).bank b' = s.bank b' := rfl
@[simp] theorem supply_modLamp (id : PointId) (f : Lamp → Lamp) (z' : Fin 8) : (State.modLamp id f s).supply z' = s.supply z' := rfl
@[simp] theorem input_modLamp (id : PointId) (f : Lamp → Lamp) (i' : Fin 8) : (State.modLamp id f s).input i' = s.input i' := rfl
@[simp] theorem loop_modLamp (id : PointId) (f : Lamp → Lamp) (l' : Fin 4) : (State.modLamp id f s).loop l' = s.loop l' := rfl
@[simp] theorem source_modLamp (id : PointId) (f : Lamp → Lamp) (r' : SourceId) : (State.modLamp id f s).source r' = s.source r' := rfl
@[simp] theorem status_modLamp (id : PointId) (f : Lamp → Lamp) (p' : PointId) : (State.modLamp id f s).status p' = s.status p' := rfl
@[simp] theorem records_modLamp (id : PointId) (f : Lamp → Lamp) : (State.modLamp id f s).records = s.records := rfl
@[simp] theorem point_modLamp (id : PointId) (f : Lamp → Lamp) (p' : PointId) : (State.modLamp id f s).point p' = s.point p' := rfl
@[simp] theorem zoneRec_modLamp (id : PointId) (f : Lamp → Lamp) (z' : Fin 8) : (State.modLamp id f s).zoneRec z' = s.zoneRec z' := rfl
@[simp] theorem coverRec_modLamp (id : PointId) (f : Lamp → Lamp) (c' : Fin 6) : (State.modLamp id f s).coverRec c' = s.coverRec c' := rfl
@[simp] theorem inputRec_modLamp (id : PointId) (f : Lamp → Lamp) (i' : Fin 8) : (State.modLamp id f s).inputRec i' = s.inputRec i' := rfl
@[simp] theorem evacuating_modLamp (id : PointId) (f : Lamp → Lamp) : (State.modLamp id f s).evacuating = s.evacuating := rfl

theorem zone_congr {s t : State} (h : s.zones = t.zones) (z : Fin 8) : s.zone z = t.zone z := by
  simp [State.zone, h]

theorem cover_congr {s t : State} (h : s.covers = t.covers) (c : Fin 6) : s.cover c = t.cover c := by
  simp [State.cover, h]

theorem segment_congr {s t : State} (h : s.segs = t.segs) (g : Fin 4) : s.segment g = t.segment g := by
  simp [State.segment, h]

theorem bank_congr {s t : State} (h : s.banks = t.banks) (b : Fin 2) : s.bank b = t.bank b := by
  simp [State.bank, h]

theorem supply_congr {s t : State} (h : s.supplies = t.supplies) (z : Fin 8) : s.supply z = t.supply z := by
  simp [State.supply, h]

theorem input_congr {s t : State} (h : s.inputs = t.inputs) (i : Fin 8) : s.input i = t.input i := by
  simp [State.input, h]

theorem loop_congr {s t : State} (h : s.loops = t.loops) (l : Fin 4) : s.loop l = t.loop l := by
  simp [State.loop, h]

/-- The definitions in force depend on the banks and the active bank alone. -/
theorem records_congr {s t : State} (hb : s.banks = t.banks) (ha : s.active = t.active) : s.records = t.records := by
  simp [State.records, State.bank, hb, ha]

end Sys2Proof.Machine
end

