-- ==== Sys2Proof/Laws/Work.lean ====
section
/-! SUPPORT. What the jobs do to the state, said once. Every composite operation of a job is a chain of the steps of
`Work`; a property that each step keeps is kept by every operation, and the fields that no step touches are untouched
by all of them. -/

namespace Sys2Proof.Machine

/-- A change of a status record's resend-wanted and forward-missed flags alone. -/
def FlagsOnly (f : PointStatus → PointStatus) : Prop :=
  ∀ st, f st = { st with resend := (f st).resend, missed := (f st).missed }

/-- A zone record that raises no grant and keeps its trim and its override. -/
def SoftZone (old new : Zone) : Prop := new.grant ≤ old.grant ∧ new.trim = old.trim ∧ new.override = old.override

@[simp] theorem softZone_iff (a b : Zone) :
    SoftZone a b ↔ b.grant ≤ a.grant ∧ b.trim = a.trim ∧ b.override = a.override := Iff.rfl

/-- One state becomes another by work of the jobs: writes of zone records that raise no grant, allocation
passes, writes of cover, supply, lamp and outdoor records, writes of status records that make none younger or GOOD, notices, SETs placed in queues with room, and latched
conditions; where `wide` holds, also by changes of the hall mode. -/
inductive Work (wide motion : Prop) : State → State → Prop
  | refl (s : State) : Work wide motion s s
  | trans {s t u : State} : Work wide motion s t → Work wide motion t u → Work wide motion s u
  | zone (s : State) (z : Fin 8) (v : Zone) (h : SoftZone (s.zone z) v) : Work wide motion s (s.setZone z v)
  | allocate (s : State) : Work wide motion s s.allocate
  | cover (s : State) (c : Fin 6) (v : Cover) (h : motion ∨ (s.cover c).moving = true) : Work wide motion s (s.setCover c v)
  | supply (s : State) (z : Fin 8) (v : Option Supply) : Work wide motion s (s.setSupply z v)
  | lamps (s : State) (l : List LampRow) (h : l.map (·.id) = s.lamps.map (·.id)) : Work wide motion s { s with lamps := l }
  | outdoor (s : State) (o : Outdoor) : Work wide motion s { s with outdoor := o }
  | status (s : State) (id : PointId) (f : PointStatus → PointStatus) (h : FlagsOnly f) : Work wide motion s (s.modStatus id f)
  | notice (s : State) (k : NoticeKind) (n : Nat) (a b : Int) : Work wide motion s (s.notice k n a b)
  | place (s : State) (e : SendEntry) (h : s.queueFull e.point = false) : Work wide motion s (s.place e)
  | raise (s : State) (c : Condition) (h : c ≠ .input ∧ c ≠ .loadAbandoned) : Work wide motion s (s.raise c)
  | mode (h : wide) (s : State) (m : Option Mode) : Work wide motion s { s with mode := m }
  | pend (h : wide) (s : State) (b : Bool) : Work wide motion s { s with dormantPending := b }
  | watch (h : wide) (s : State) (t : Timer) : Work wide motion s { s with watch := t }

variable {w mo : Prop} {s t : State}

/-! ### The steps, at the end of a chain -/

@[simp] theorem Work.self : Work w mo s s := .refl s

@[simp] theorem Work.setZone (z : Fin 8) (v : Zone) (hv : SoftZone (t.zone z) v) (h : Work w mo s t) :
    Work w mo s (t.setZone z v) := h.trans (.zone _ _ _ hv)

@[simp] theorem Work.modZone (z : Fin 8) (f : Zone → Zone) (hf : ∀ v, SoftZone v (f v)) (h : Work w mo s t) :
    Work w mo s (State.modZone z f t) := h.trans (.zone _ _ _ (hf _))

@[simp] theorem Work.pass (h : Work w mo s t) : Work w mo s (State.allocate t) := h.trans (.allocate ..)

@[simp] theorem Work.setCover (c : Fin 6) (v : Cover) (hm : mo ∨ (t.cover c).moving = true) (h : Work w mo s t) :
    Work w mo s (t.setCover c v) := h.trans (.cover _ _ _ hm)

@[simp] theorem Work.modCover (c : Fin 6) (f : Cover → Cover) (hm : mo ∨ (t.cover c).moving = true) (h : Work w mo s t) :
    Work w mo s (State.modCover c f t) := h.trans (.cover _ _ _ hm)

@[simp] theorem Work.setSupply (z : Fin 8) (v : Option Supply) (h : Work w mo s t) : Work w mo s (t.setSupply z v) :=
  h.trans (.supply ..)

@[simp] theorem Work.modSupply (z : Fin 8) (f : Supply → Supply) (h : Work w mo s t) : Work w mo s (State.modSupply z f t) :=
  h.trans (.supply ..)

@[simp] theorem Work.modStatus (id : PointId) (f : PointStatus → PointStatus) (hf : FlagsOnly f) (h : Work w mo s t) :
    Work w mo s (State.modStatus id f t) := h.trans (.status _ _ _ hf)

/-- A write of lamp records by identity keeps the identities of the strip. -/
theorem lampIds_modLamp (id : PointId) (f : Lamp → Lamp) (s : State) :
    (State.modLamp id f s).lamps.map (·.id) = s.lamps.map (·.id) := by
  simp only [State.modLamp, List.map_map]
  refine List.map_congr_left fun r _ => ?_
  simp only [Function.comp]
  split <;> rfl

@[simp] theorem Work.modLamp (id : PointId) (f : Lamp → Lamp) (h : Work w mo s t) : Work w mo s (State.modLamp id f t) :=
  h.trans (.lamps _ _ (lampIds_modLamp id f t))

@[simp] theorem Work.report (k : NoticeKind) (n : Nat) (a b : Int) (h : Work w mo s t) : Work w mo s (State.notice k n a b t) :=
  h.trans (.notice ..)

@[simp] theorem Work.latch (c : Condition) (hc : c ≠ .input ∧ c ≠ .loadAbandoned) (h : Work w mo s t) :
    Work w mo s (State.raise c t) := h.trans (.raise _ _ hc)

@[simp] theorem Work.wantResend (id : PointId) (h : Work w mo s t) : Work w mo s (State.wantResend id t) :=
  h.modStatus _ _ fun _ => rfl

/-! ### Branches and loops -/

@[simp] theorem Work.ite {c : Prop} [Decidable c] {a b : State} (ha : Work w mo s a) (hb : Work w mo s b) :
    Work w mo s (if c then a else b) := by
  split <;> assumption

@[simp] theorem Work.forEach {α : Type} (l : List α) (f : α → State → State) (hf : ∀ a t, Work w mo t (f a t)) (h : Work w mo s t) :
    Work w mo s (forEach l f t) := by
  induction l generalizing t with
  | nil => exact h
  | cons a l ih => exact ih (h.trans (hf a t))

/-! ### Admission -/

/-- The definition found for an identity has that identity. -/
theorem point_id {d : PointDef} {id : PointId} (h : s.point id = some d) : d.id = id := by
  have := List.find?_some h
  simpa using this

@[simp] theorem Work.trySubmit (o : Owner) (id : PointId) (v : Int) (f : Nat) (h : Work w mo s t) :
    Work w mo s (State.trySubmit o id v f t).1 := by
  unfold State.trySubmit
  split
  · exact h
  · next d hd =>
    split
    · exact h.wantResend ..
    · next hw =>
      dsimp only
      refine Work.modStatus _ _ (fun _ => rfl) (h.trans (.place _ _ ?_))
      simp only [State.withheld, Bool.or_eq_true, not_or, Bool.not_eq_true] at hw
      rw [← point_id hd]
      exact hw.2

@[simp] theorem Work.submit (o : Owner) (id : PointId) (v : Int) (f : Nat) (h : Work w mo s t) :
    Work w mo s (State.submit o id v f t) := h.trySubmit ..

/-! ### Covers -/

@[simp] theorem trySubmit_cover (o : Owner) (id : PointId) (v : Int) (f : Nat) (t : State) (c : Fin 6) :
    (State.trySubmit o id v f t).1.cover c = t.cover c := by
  unfold State.trySubmit
  split
  · rfl
  · split <;> rfl

@[simp] theorem submit_cover (o : Owner) (id : PointId) (v : Int) (f : Nat) (t : State) (c : Fin 6) :
    (State.submit o id v f t).cover c = t.cover c := trySubmit_cover ..

@[simp] theorem Work.coverEvent (c : Fin 6) (r : CoverRec) (e : CoverEvent) (h : Work w mo s t) :
    Work w mo s (State.coverEvent c r e t) := h.report ..

@[simp] theorem Work.sendDrive (c : Fin 6) (r : CoverRec) (h : Work w mo s t) : Work w mo s (State.sendDrive c r t) := by
  unfold State.sendDrive; split <;> simp (maxDischargeDepth := 32) [h]

@[simp] theorem Work.sendFan (c : Fin 6) (r : CoverRec) (h : Work w mo s t) : Work w mo s (State.sendFan c r t) := h.submit ..

@[simp] theorem Work.coverOpportunity (c : Fin 6) (r : CoverRec) (h : Work w mo s t) :
    Work w mo s (State.coverOpportunity c r t) := by
  unfold State.coverOpportunity; simp (maxDischargeDepth := 32) [h]

@[simp] theorem Work.formFloors (z : Fin 8) (h : Work w mo s t) : Work w mo s (State.formFloors z t) := by
  unfold State.formFloors; simp (maxDischargeDepth := 32) [h]

@[simp] theorem Work.startClose (c : Fin 6) (r : CoverRec) (h : Work w True s t) : Work w True s (State.startClose c r t) := by
  unfold State.startClose; simp (maxDischargeDepth := 32) [h]

@[simp] theorem Work.startOpen (c : Fin 6) (r : CoverRec) (h : Work w True s t) : Work w True s (State.startOpen c r t) := by
  unfold State.startOpen; simp (maxDischargeDepth := 32) [h]

@[simp] theorem Work.haltCover (c : Fin 6) (r : CoverRec) (why : HaltReason) (e : CoverEvent)
    (hm : mo ∨ (t.cover c).moving = true) (h : Work w mo s t) : Work w mo s (State.haltCover c r why e t) := by
  have h1 : Work w mo s ((t.modCover c fun v => { v with travel := v.travel.stop }).submit .cover r.drive 0 0) :=
    (h.modCover _ _ hm).submit ..
  have hm1 : mo ∨ (((t.modCover c fun v => { v with travel := v.travel.stop }).submit .cover r.drive 0 0).cover c).moving =
      true := by
    rw [submit_cover, State.modCover, cover_setCover_self]
    exact hm
  unfold State.haltCover
  exact ((h1.modCover _ _ hm1).coverEvent ..).coverOpportunity ..

@[simp] theorem Work.haltIf (c : Fin 6) (p : CoverRec → Cover → Bool) (why : HaltReason) (e : CoverEvent)
    (hp : ∀ r v, p r v = true → v.moving = true) (h : Work w mo s t) : Work w mo s (State.haltIf c p why e t) := by
  unfold State.haltIf
  split
  · split
    · next ha => exact h.haltCover _ _ _ _ (.inr (hp _ _ ha))
    · exact h
  · exact h

@[simp] theorem Work.stopCovers (h : Work w mo s t) : Work w mo s (State.stopCovers t) :=
  h.forEach _ _ fun _ _ => Work.self.haltIf _ _ _ _ fun _ _ hv => hv

@[simp] theorem Work.occupiedCovers (z : Fin 8) (h : Work w mo s t) : Work w mo s (State.occupiedCovers z t) := by
  refine h.forEach _ _ fun _ _ => Work.self.haltIf _ _ _ _ fun _ v hv => ?_
  simp at hv
  simp [Cover.moving, hv]

@[simp] theorem Work.darkCovers (z : Fin 8) (h : Work w mo s t) : Work w mo s (State.darkCovers z t) := by
  refine h.forEach _ _ fun _ _ => Work.self.haltIf _ _ _ _ fun _ v hv => ?_
  simp at hv
  exact hv.1.2

@[simp] theorem Work.positionTo (c : Fin 6) (r : CoverRec) (q : Quality) (v : Option Int) (h : Work w True s t) :
    Work w True s (State.positionTo c r q v t) := by
  unfold State.positionTo; simp (maxDischargeDepth := 32) [h]

@[simp] theorem Work.deliverPosition (id : PointId) (q : Quality) (v : Option Int) (h : Work w True s t) :
    Work w True s (State.deliverPosition id q v t) := by
  unfold State.deliverPosition; split <;> simp (maxDischargeDepth := 32) [h]

@[simp] theorem Work.startPurge (c : Fin 6) (r : CoverRec) (h : Work w True s t) : Work w True s (State.startPurge c r t) := by
  unfold State.startPurge; simp (maxDischargeDepth := 32) [h]

@[simp] theorem Work.waitPurge (c : Fin 6) (r : CoverRec) (h : Work w True s t) : Work w True s (State.waitPurge c r t) :=
  h.modCover _ _ (.inl trivial)

@[simp] theorem Work.endPurge (c : Fin 6) (r : CoverRec) (h : Work w True s t) : Work w True s (State.endPurge c r t) := by
  unfold State.endPurge; dsimp only; split <;> simp (maxDischargeDepth := 32) [h]

@[simp] theorem Work.coverEcho (id : PointId) (v : Int) (a : ActStatus) (o : Owner) (h : Work w True s t) :
    Work w True s (State.coverEcho id v a o t) := by
  unfold State.coverEcho
  split
  · split
    · exact h
    · split <;> simp (maxDischargeDepth := 32) [h]
  · exact h

@[simp] theorem Work.coverMiss (id : PointId) (o : Owner) (h : Work w True s t) : Work w True s (State.coverMiss id o t) := by
  unfold State.coverMiss
  dsimp only
  split <;> split <;> simp (maxDischargeDepth := 32) [h]

@[simp] theorem Work.coverResync (id : PointId) (h : Work w mo s t) : Work w mo s (State.coverResync id t) := by
  unfold State.coverResync; split <;> simp (maxDischargeDepth := 32) [h]

@[simp] theorem Work.deriveCover (c : Fin 6) (r : CoverRec) (h : Work w True s t) : Work w True s (State.deriveCover c r t) := by
  unfold State.deriveCover; simp (maxDischargeDepth := 32) [h]

@[simp] theorem Work.deriveCovers (h : Work w True s t) : Work w True s (State.deriveCovers t) := by
  unfold State.deriveCovers
  refine Work.forEach _ _ (fun _ _ => by simp) (Work.forEach _ _ (fun c u => ?_) h)
  split <;> simp

@[simp] theorem Work.travelExpired (c : Fin 6) (h : Work w True s t) : Work w True s (State.travelExpired c t) := by
  unfold State.travelExpired; split <;> simp (maxDischargeDepth := 32) [h]

@[simp] theorem Work.intervalExpired (c : Fin 6) (h : Work w True s t) : Work w True s (State.intervalExpired c t) := by
  unfold State.intervalExpired; split <;> simp (maxDischargeDepth := 32) [h]

@[simp] theorem Work.durationExpired (c : Fin 6) (h : Work w True s t) : Work w True s (State.durationExpired c t) := by
  unfold State.durationExpired; split <;> simp (maxDischargeDepth := 32) [h]

@[simp] theorem Work.validityExpired (c : Fin 6) (h : Work w True s t) : Work w True s (State.validityExpired c t) :=
  h.modCover _ _ (.inl trivial)

/-! ### Lighting -/

@[simp] theorem Work.powerPoint (z : Fin 8) (id : PointId) (h : Work w mo s t) : Work w mo s (State.powerPoint z id t) := by
  unfold State.powerPoint; simp (maxDischargeDepth := 32) [h]

@[simp] theorem Work.examineOn (z : Fin 8) (h : Work w mo s t) : Work w mo s (State.examineOn z t) := by
  unfold State.examineOn; split <;> simp (maxDischargeDepth := 32) [h]

@[simp] theorem Work.sendLamp (id : PointId) (h : Work w mo s t) : Work w mo s (State.sendLamp id t) := by
  unfold State.sendLamp; split <;> simp (maxDischargeDepth := 32) [h]

@[simp] theorem Work.releaseLamp (id : PointId) (h : Work w mo s t) : Work w mo s (State.releaseLamp id t) := by
  unfold State.releaseLamp; simp (maxDischargeDepth := 32) [h]

@[simp] theorem Work.releaseSupply (z : Fin 8) (h : Work w mo s t) : Work w mo s (State.releaseSupply z t) := by
  unfold State.releaseSupply; simp (maxDischargeDepth := 32) [h]

@[simp] theorem Work.examineSupply (z : Fin 8) (h : Work w mo s t) : Work w mo s (State.examineSupply z t) := by
  unfold State.examineSupply
  split
  · exact h
  · split <;> simp (maxDischargeDepth := 32) [h]

@[simp] theorem Work.serveSupply (z : Fin 8) (id : PointId) (h : Work w mo s t) : Work w mo s (State.serveSupply z id t) := by
  unfold State.serveSupply; simp (maxDischargeDepth := 32) [h]

@[simp] theorem Work.serveLamp (z : Fin 8) (id : PointId) (h : Work w mo s t) : Work w mo s (State.serveLamp z id t) := by
  unfold State.serveLamp; split <;> simp (maxDischargeDepth := 32) [h]

@[simp] theorem Work.ifWanted (id : PointId) (f : State → State) (hf : ∀ t, Work w mo t (f t)) (h : Work w mo s t) :
    Work w mo s (State.ifWanted id f t) := by
  unfold State.ifWanted
  split
  · exact h.trans (hf t)
  · exact h

@[simp] theorem Work.lightOpportunity (z : Fin 8) (h : Work w mo s t) : Work w mo s (State.lightOpportunity z t) := by
  unfold State.lightOpportunity; simp (maxDischargeDepth := 32) [h]

@[simp] theorem Work.ifSupplyMoved (z : Fin 8) (b : State) (h : Work w mo s t) :
    Work w mo s (State.ifSupplyMoved z b t) := by
  unfold State.ifSupplyMoved; simp (maxDischargeDepth := 32) [h]

@[simp] theorem Work.leaveAwaiting (z : Fin 8) (id : PointId) (h : Work w mo s t) :
    Work w mo s (State.leaveAwaiting z id t) := by
  unfold State.leaveAwaiting; split <;> simp (maxDischargeDepth := 32) [h]

@[simp] theorem Work.answered (id : PointId) (h : Work w mo s t) : Work w mo s (State.answered id t) := by
  unfold State.answered; split <;> simp (maxDischargeDepth := 32) [h]

@[simp] theorem Work.lightEcho (id : PointId) (o : Owner) (h : Work w mo s t) : Work w mo s (State.lightEcho id o t) := by
  unfold State.lightEcho; simp (maxDischargeDepth := 32) [h]

@[simp] theorem Work.lightMiss (id : PointId) (o : Owner) (h : Work w mo s t) : Work w mo s (State.lightMiss id o t) := by
  unfold State.lightMiss; dsimp only; split <;> simp (maxDischargeDepth := 32) [h]

@[simp] theorem Work.lightResync (id : PointId) (h : Work w mo s t) : Work w mo s (State.lightResync id t) := by
  unfold State.lightResync
  split
  · simp (maxDischargeDepth := 32) [h]
  · split <;> simp (maxDischargeDepth := 32) [h]

@[simp] theorem Work.disposeLamp (id : PointId) (h : Work w mo s t) : Work w mo s (State.disposeLamp id t) := by
  unfold State.disposeLamp; simp (maxDischargeDepth := 32) [h]

@[simp] theorem Work.retargetLamp (id : PointId) (h : Work w mo s t) : Work w mo s (State.retargetLamp id t) := by
  unfold State.retargetLamp; split <;> simp (maxDischargeDepth := 32) [h]

@[simp] theorem Work.retarget (p : PointDef → Bool) (l : List PointId) (h : Work w mo s t) :
    Work w mo s (State.retarget p l t) := by
  unfold State.retarget; simp (maxDischargeDepth := 32) [h]

@[simp] theorem Work.retargetAll (h : Work w mo s t) : Work w mo s (State.retargetAll t) := h.retarget ..

@[simp] theorem Work.evacuateZone (z : Fin 8) (h : Work w mo s t) : Work w mo s (State.evacuateZone z t) := by
  unfold State.evacuateZone; split <;> simp (maxDischargeDepth := 32) [h]

@[simp] theorem Work.evacuationStart (h : Work w mo s t) : Work w mo s (State.evacuationStart t) := by
  unfold State.evacuationStart
  refine Work.forEach _ _ (fun _ _ => by simp) ?_
  refine Work.retarget _ _ (Work.trans ?_ (Work.lamps _ _ (by simp [Function.comp_def])))
  exact Work.forEach _ _ (fun _ _ => by simp) h

@[simp] theorem Work.offDelayExpired (z : Fin 8) (h : Work w mo s t) : Work w mo s (State.offDelayExpired z t) := by
  unfold State.offDelayExpired; split <;> simp (maxDischargeDepth := 32) [h]

@[simp] theorem Work.rebuildSupply (rs : List Stored) (z : Fin 8) (h : Work w mo s t) :
    Work w mo s (State.rebuildSupply rs z t) := by
  unfold State.rebuildSupply; simp (maxDischargeDepth := 32) [h]

@[simp] theorem Work.releaseStray (z : Fin 8) (h : Work w mo s t) : Work w mo s (State.releaseStray z t) := by
  unfold State.releaseStray; simp (maxDischargeDepth := 32) [h]

@[simp] theorem Work.switchLighting (rs : List Stored) (h : Work w mo s t) : Work w mo s (State.switchLighting rs t) := by
  unfold State.switchLighting; simp (maxDischargeDepth := 32) [h]

/-! ### Climate -/

@[simp] theorem setLast_soft (v : Zone) (k : ActKind) (x : Option Int) :
    (v.setLast k x).grant = v.grant ∧ (v.setLast k x).trim = v.trim ∧ (v.setLast k x).override = v.override := by
  cases k <;> exact ⟨rfl, rfl, rfl⟩

@[simp] theorem setLast_grant (v : Zone) (k : ActKind) (x : Option Int) : (v.setLast k x).grant = v.grant :=
  (setLast_soft v k x).1

@[simp] theorem setLast_trim (v : Zone) (k : ActKind) (x : Option Int) : (v.setLast k x).trim = v.trim :=
  (setLast_soft v k x).2.1

@[simp] theorem setLast_override (v : Zone) (k : ActKind) (x : Option Int) : (v.setLast k x).override = v.override :=
  (setLast_soft v k x).2.2

theorem setpointStage_soft (r : ZoneRec) (x : Option Int) (b : Bool) (v : Zone) :
    SoftZone v (setpointStage r x b v) := by
  unfold setpointStage; repeat' split
  all_goals exact ⟨Nat.le_refl _, rfl, rfl⟩

theorem heatStage_soft (r : ZoneRec) (x : Int) (v : Zone) : SoftZone v (heatStage r x v) := ⟨Nat.le_refl _, rfl, rfl⟩

theorem moistZone_soft (a b c : Option Int) (d : Bool) (v : Zone) : SoftZone v (moistZone a b c d v) := by
  unfold moistZone; dsimp only; repeat' split
  all_goals exact ⟨Nat.le_refl _, rfl, rfl⟩

@[simp] theorem Work.noRequests (h : Work w mo s t) : Work w mo s (State.noRequests t) := by
  unfold State.noRequests; simp (maxDischargeDepth := 32) [h]

@[simp] theorem Work.examineOccupied (z : Fin 8) (h : Work w mo s t) : Work w mo s (State.examineOccupied z t) := by
  unfold State.examineOccupied; simp (maxDischargeDepth := 32) [h]

@[simp] theorem Work.deliverOccupancy (d : PointDef) (a b : Bool) (h : Work w mo s t) :
    Work w mo s (State.deliverOccupancy d a b t) := by
  unfold State.deliverOccupancy; split <;> simp (maxDischargeDepth := 32) [h]

@[simp] theorem Work.starvation (z : Fin 8) (h : Work w mo s t) : Work w mo s (State.starvation z t) := by
  unfold State.starvation; dsimp only; split <;> simp (maxDischargeDepth := 32) [h]

@[simp] theorem Work.riskStage (z : Fin 8) (r : ZoneRec) (c : Course) (h : Work w mo s t) : Work w mo s (State.riskStage z r c t) := by
  unfold State.riskStage; simp (maxDischargeDepth := 32) [h]

@[simp] theorem Work.watchMoisture (z : Fin 8) (h : Work w mo s t) : Work w mo s (State.watchMoisture z t) :=
  Work.modZone _ _ (fun _ => moistZone_soft ..) h

@[simp] theorem Work.fullMoisture (z : Fin 8) (h : Work w mo s t) : Work w mo s (State.fullMoisture z t) :=
  (Work.modZone _ _ (fun _ => moistZone_soft ..) h).trans (.outdoor ..)

@[simp] theorem Work.sendOutput (z : Fin 8) (k : ActKind) (v : Int) (b : Bool) (h : Work w mo s t) : Work w mo s (State.sendOutput z k v b t) := by
  unfold State.sendOutput; simp (maxDischargeDepth := 32) [h]

@[simp] theorem Work.sendingStage (z : Fin 8) (o : Outputs) (h : Work w mo s t) : Work w mo s (State.sendingStage z o t) := by
  unfold State.sendingStage; simp (maxDischargeDepth := 32) [h]

@[simp] theorem Work.demandStages (z : Fin 8) (r : ZoneRec) (h : Work w mo s t) :
    Work w mo s (State.demandStages z r t) := by
  unfold State.demandStages
  extract_lets course water s3 s4 s6 s7
  have h3 : Work w mo s s3 := ((h.fullMoisture z).starvation z).modZone _ _ fun _ => ⟨Nat.le_refl _, rfl, rfl⟩
  have h4 : Work w mo s s4 := h3.riskStage ..
  have h6 : Work w mo s s6 :=
    Work.modZone _ _ (fun _ => by simp) (Work.modZone _ _ (fun _ => by simp) h4)
  have h7 : Work w mo s s7 := h6.modZone _ _ fun _ => setpointStage_soft ..
  split
  · exact h7
  · exact h7.modZone _ _ fun _ => heatStage_soft ..

@[simp] theorem Work.evaluateWith (z : Fin 8) (r : ZoneRec) (h : Work w mo s t) : Work w mo s (State.evaluateWith z r t) := by
  unfold State.evaluateWith; simp (maxDischargeDepth := 32) [h]

@[simp] theorem Work.evaluate (z : Fin 8) (h : Work w mo s t) : Work w mo s (State.evaluate z t) := by
  unfold State.evaluate; split <;> simp (maxDischargeDepth := 32) [h]

@[simp] theorem Work.evaluateNow (z : Fin 8) (h : Work w mo s t) : Work w mo s (State.evaluateNow z t) := by
  unfold State.evaluateNow; split <;> simp (maxDischargeDepth := 32) [h]

@[simp] theorem Work.watchEvaluate (z : Fin 8) (h : Work w mo s t) : Work w mo s (State.watchEvaluate z t) := by
  unfold State.watchEvaluate; split <;> simp (maxDischargeDepth := 32) [h]

@[simp] theorem Work.watchEvaluations (h : Work w mo s t) : Work w mo s (State.watchEvaluations t) := by
  unfold State.watchEvaluations; simp (maxDischargeDepth := 32) [h]

@[simp] theorem Work.evaluationExpired (z : Fin 8) (h : Work w mo s t) : Work w mo s (State.evaluationExpired z t) := by
  unfold State.evaluationExpired; simp (maxDischargeDepth := 32) [h]

@[simp] theorem Work.holdExpired (z : Fin 8) (h : Work w mo s t) : Work w mo s (State.holdExpired z t) := h.examineOccupied ..

@[simp] theorem Work.sleepZone (z : Fin 8) (h : Work w mo s t) : Work w mo s (State.sleepZone z t) := by
  unfold State.sleepZone; simp (maxDischargeDepth := 32) [h]

@[simp] theorem Work.climateSleep (h : Work w mo s t) : Work w mo s (State.climateSleep t) := by
  unfold State.climateSleep; simp (maxDischargeDepth := 32) [h]

@[simp] theorem Work.climateWake (h : Work w mo s t) : Work w mo s (State.climateWake t) := by
  unfold State.climateWake; simp (maxDischargeDepth := 32) [h]

@[simp] theorem Work.climateResync (id : PointId) (h : Work w mo s t) : Work w mo s (State.climateResync id t) := by
  unfold State.climateResync
  split
  · split
    · split
      · simp [h]
      · split <;> simp [h]
    · exact h
  · exact h

/-! ### Samples and echoes, what they deliver -/

@[simp] theorem Work.deliverSample (d : PointDef) (q : Quality) (g : Bool) (v : Int) (h : Work w True s t) :
    Work w True s (State.deliverSample d q g v t) := by
  unfold State.deliverSample; dsimp only; split <;> simp (maxDischargeDepth := 32) [h]

@[simp] theorem Work.deliverQuality (d : PointDef) (q : Quality) (h : Work w True s t) :
    Work w True s (State.deliverQuality d q t) := by
  unfold State.deliverQuality; split <;> simp (maxDischargeDepth := 32) [h]

@[simp] theorem Work.deliverChanges (b : State) (h : Work w True s t) : Work w True s (State.deliverChanges b t) := by
  unfold State.deliverChanges; simp (maxDischargeDepth := 32) [h]

@[simp] theorem Work.tellEcho (d : PointDef) (v : Int) (a : ActStatus) (o : Owner) (h : Work w True s t) : Work w True s (State.tellEcho d v a o t) := by
  unfold State.tellEcho; split <;> simp (maxDischargeDepth := 32) [h]

@[simp] theorem Work.tellMiss (d : PointDef) (o : Owner) (h : Work w True s t) : Work w True s (State.tellMiss d o t) := by
  unfold State.tellMiss; split <;> simp (maxDischargeDepth := 32) [h]

@[simp] theorem Work.resync (id : PointId) (h : Work w mo s t) : Work w mo s (State.resync id t) := by
  unfold State.resync; split <;> simp (maxDischargeDepth := 32) [h]

@[simp] theorem Work.answerNode (g : Fin 4) (n : Fin 31) (h : Work w mo s t) : Work w mo s (State.answerNode g n t) := by
  unfold State.answerNode; simp (maxDischargeDepth := 32) [h]

/-! ### The hall mode, where the chain is wide -/

@[simp] theorem Work.putMode (m : Mode) (n : Nat) (h : Work True mo s t) : Work True mo s (State.putMode m n t) := by
  unfold State.putMode
  split
  · exact h
  · exact (h.trans (.mode trivial ..)).report ..

@[simp] theorem Work.enterDormant (n : Nat) (h : Work True mo s t) : Work True mo s (State.enterDormant n t) := by
  unfold State.enterDormant
  exact ((((h.trans (.pend trivial _ false)).trans (.watch trivial ..)).putMode _ _).climateSleep).retargetAll

@[simp] theorem Work.changeMode (m : Mode) (n : Nat) (h : Work True mo s t) : Work True mo s (State.changeMode m n t) := by
  unfold State.changeMode
  split
  · split
    · exact h
    · exact (((h.trans (.watch trivial ..)).putMode _ _).climateWake).retargetAll
  · exact h.putMode ..

theorem Work.wake (b : State) (h : Work True mo s t) : Work True mo s (Machine.wake b t) := by
  unfold Machine.wake
  split
  · split
    · exact (h.trans (.pend trivial _ true)).changeMode ..
    · exact h
  · exact h

theorem Work.recheck (b : State) (h : Work True mo s t) : Work True mo s (Machine.recheck b t) := by
  unfold Machine.recheck
  split
  · exact h.enterDormant ..
  · exact h

/-- What follows an event's own effects is work of the jobs and changes of the mode. -/
theorem Work.settle (b : State) (h : Work True mo s t) : Work True mo s (Machine.settle b t) := (h.wake b).recheck b

@[simp] theorem Work.requestMode (m : Mode) (n : Nat) (h : Work True mo s t) :
    Work True mo s (State.requestMode m n t).1 := by
  unfold State.requestMode
  split
  · split
    · exact h
    · dsimp only
      exact (h.trans (.pend trivial _ false)).changeMode ..
  · dsimp only
    exact (h.trans (.pend trivial _ false)).changeMode ..
  · dsimp only
    exact (h.trans (.pend trivial _ false)).changeMode ..
  · split
    · exact h
    · split
      · dsimp only
        exact (h.trans (.pend trivial _ true)).putMode ..
      · dsimp only
        exact h.enterDormant ..

/-- A chain is also a chain of a wider kind. -/
theorem Work.widen {w' mo' : Prop} (hw : w → w') (hm : mo → mo') (h : Work w mo s t) : Work w' mo' s t := by
  induction h with
  | refl s => exact .refl s
  | trans _ _ a b => exact a.trans b
  | mode h s m => exact .mode (hw h) s m
  | pend h s b => exact .pend (hw h) s b
  | watch h s v => exact .watch (hw h) s v
  | zone _ _ _ h => exact .zone _ _ _ h
  | allocate => exact .allocate ..
  | cover _ _ _ h => exact .cover _ _ _ (h.imp hm id)
  | supply => exact .supply ..
  | lamps _ _ h => exact .lamps _ _ h
  | outdoor => exact .outdoor ..
  | status _ _ _ h => exact .status _ _ _ h
  | notice => exact .notice ..
  | place _ _ h => exact .place _ _ h
  | raise _ _ h => exact .raise _ _ h

end Sys2Proof.Machine
end

