-- ==== Sys2Proof/Laws/Kept.lean ====
section
/-! SUPPORT. What the work of the jobs leaves alone, field by field, and the laws of the queues and the grants under it. -/

namespace Sys2Proof.Machine

/-- The fields no job writes. -/
structure JobsKeep (s t : State) : Prop where
  pending : t.pending = s.pending
  trunkAddr : t.trunkAddr = s.trunkAddr
  runState : t.runState = s.runState
  silence : t.silence = s.silence
  protocolError : t.protocolError = s.protocolError
  trunkCrc : t.trunkCrc = s.trunkCrc
  tx : t.tx = s.tx
  echoes : t.echoes = s.echoes
  banks : t.banks = s.banks
  load : t.load = s.load
  active : t.active = s.active
  capacity : t.capacity = s.capacity
  priority : t.priority = s.priority
  palette : t.palette = s.palette
  loops : t.loops = s.loops
  sourceA : t.sourceA = s.sourceA
  sourceB : t.sourceB = s.sourceB
  split : t.split = s.split
  inputs : t.inputs = s.inputs
  freeCount : t.freeCount = s.freeCount

theorem JobsKeep.refl (s : State) : JobsKeep s s := by constructor <;> rfl

theorem JobsKeep.trans {s t u : State} (a : JobsKeep s t) (b : JobsKeep t u) : JobsKeep s u := by
  constructor
  all_goals first
    | exact b.1.trans a.1 | exact b.2.trans a.2 | exact b.3.trans a.3 | exact b.4.trans a.4 | exact b.5.trans a.5
    | exact b.6.trans a.6 | exact b.7.trans a.7 | exact b.8.trans a.8 | exact b.9.trans a.9 | exact b.10.trans a.10
    | exact b.11.trans a.11 | exact b.12.trans a.12 | exact b.13.trans a.13 | exact b.14.trans a.14
    | exact b.15.trans a.15 | exact b.16.trans a.16 | exact b.17.trans a.17 | exact b.18.trans a.18
    | exact b.19.trans a.19 | exact b.20.trans a.20

theorem grantAlong_keeps (l : List (Fin 8)) (n : Nat) (s : State) : JobsKeep s (grantAlong l n s) := by
  induction l generalizing n s with
  | nil => exact .refl s
  | cons z l ih => exact JobsKeep.trans (by constructor <;> rfl) (ih _ _)

theorem markMissed_keeps (id : PointId) (s : State) : JobsKeep s (s.markMissed id) := by
  unfold State.markMissed
  split
  · split
    · constructor <;> rfl
    · exact .refl s
  · exact .refl s

theorem offer_keeps (e : UpEntry) (s : State) : JobsKeep s (s.offer e) := by
  unfold State.offer
  split
  · constructor <;> rfl
  · split
    · exact JobsKeep.trans (by constructor <;> rfl) (markMissed_keeps _ _)
    · constructor <;> rfl

theorem notice_keeps (k : NoticeKind) (n : Nat) (a b : Int) (s : State) : JobsKeep s (s.notice k n a b) :=
  JobsKeep.trans (by constructor <;> rfl) (offer_keeps _ _)

/-- No work of the jobs writes one of these fields. -/
theorem Work.keeps {w mo : Prop} {s t : State} (h : Work w mo s t) : JobsKeep s t := by
  induction h with
  | refl s => exact .refl s
  | trans _ _ a b => exact a.trans b
  | allocate s => exact grantAlong_keeps ..
  | notice s k n a b => exact notice_keeps ..
  | _ => constructor <;> rfl

/-! ### Records, held actions -/

theorem JobsKeep.records {s t : State} (h : JobsKeep s t) : t.records = s.records := by
  simp only [State.records, State.bank, h.active, h.banks]

theorem JobsKeep.held {s t : State} (h : JobsKeep s t) (a : Action) : t.held a = s.held a := by
  have hin : ∀ i, t.input i = s.input i := fun i => by rw [State.input, State.input, h.inputs]
  unfold State.held
  congr 1
  funext i
  rw [hin i]

theorem JobsKeep.effectiveCapacity {s t : State} (h : JobsKeep s t) : t.effectiveCapacity = s.effectiveCapacity := by
  simp only [State.effectiveCapacity, h.held, h.capacity]

/-! ### The identities of the strip -/

theorem grantAlong_lamps (l : List (Fin 8)) (n : Nat) (s : State) : (grantAlong l n s).lamps = s.lamps := by
  induction l generalizing n s with
  | nil => rfl
  | cons z l ih => exact ih _ _

theorem offer_lamps (e : UpEntry) (s : State) : (s.offer e).lamps = s.lamps := by
  unfold State.offer
  split
  · rfl
  · split
    · unfold State.markMissed; split
      · split <;> rfl
      · rfl
    · rfl

/-- The work of the jobs keeps the identities of the lamp records: only GO, a bank switch, HALT and POWER_ON build a
strip. -/
theorem Work.lampIds {w mo : Prop} {s t : State} (h : Work w mo s t) : t.lamps.map (·.id) = s.lamps.map (·.id) := by
  induction h with
  | refl s => rfl
  | trans _ _ a b => exact b.trans a
  | allocate s => exact congrArg _ (grantAlong_lamps ..)
  | notice s k n a b => exact congrArg _ (offer_lamps ..)
  | lamps _ _ h => exact h
  | _ => rfl

/-! ### The other parts of a segment -/

/-- A segment with everything but its queue as it was. -/
structure LinkKeeps (a b : Segment) : Prop where
  nodes : b.nodes = a.nodes
  fieldSeq : b.fieldSeq = a.fieldSeq
  roundCounter : b.roundCounter = a.roundCounter
  roundPos : b.roundPos = a.roundPos
  rollCall : b.rollCall = a.rollCall
  crcCount : b.crcCount = a.crcCount
  missCount : b.missCount = a.missCount
  exchange : b.exchange = a.exchange
  lastFrame : b.lastFrame = a.lastFrame

theorem LinkKeeps.refl (a : Segment) : LinkKeeps a a := by constructor <;> rfl

theorem LinkKeeps.trans {a b c : Segment} (h : LinkKeeps a b) (k : LinkKeeps b c) : LinkKeeps a c :=
  ⟨k.1.trans h.1, k.2.trans h.2, k.3.trans h.3, k.4.trans h.4, k.5.trans h.5, k.6.trans h.6, k.7.trans h.7,
    k.8.trans h.8, k.9.trans h.9⟩

theorem grantAlong_segs (l : List (Fin 8)) (n : Nat) (s : State) : (grantAlong l n s).segs = s.segs := by
  induction l generalizing n s with
  | nil => rfl
  | cons z l ih => exact ih _ _

theorem markMissed_segs (id : PointId) (s : State) : (s.markMissed id).segs = s.segs := by
  unfold State.markMissed
  split
  · split <;> rfl
  · rfl

theorem offer_segs (e : UpEntry) (s : State) : (s.offer e).segs = s.segs := by
  unfold State.offer
  split
  · rfl
  · split
    · exact markMissed_segs _ _
    · rfl

theorem notice_segs (k : NoticeKind) (n : Nat) (a b : Int) (s : State) : (s.notice k n a b).segs = s.segs :=
  offer_segs _ _

theorem segment_place (e : SendEntry) (s : State) (g : Fin 4) :
    (s.place e).segment g =
      if g = pointSeg e.point then
        { s.segment g with
          queue := enqueue { e with value := s.envelope e.point e.value, fade := min e.fade 600 } (s.segment g).queue }
      else s.segment g := by
  by_cases h : g = pointSeg e.point
  · subst h
    simp [State.place, State.modSegment, State.segment, State.setSegment]
  · have h' : (pointSeg e.point).val ≠ g.val := fun k => h (Fin.ext k.symm)
    simp [State.place, State.modSegment, State.segment, State.setSegment, h', h]

/-- The jobs write the queues of the segments and nothing else of them. -/
theorem Work.link {w mo : Prop} {s t : State} (h : Work w mo s t) (g : Fin 4) :
    LinkKeeps (s.segment g) (t.segment g) := by
  induction h with
  | refl s => exact .refl _
  | trans _ _ a b => exact a.trans b
  | allocate s => rw [State.segment, State.segment, State.allocate, grantAlong_segs]; exact .refl _
  | notice s k n a b => rw [State.segment, State.segment, notice_segs]; exact .refl _
  | place s e _ =>
    rw [segment_place]
    split
    · constructor <;> rfl
    · exact .refl _
  | _ => exact .refl _

/-! ### Covers that do not move -/

theorem grantAlong_covers (l : List (Fin 8)) (n : Nat) (s : State) : (grantAlong l n s).covers = s.covers := by
  induction l generalizing n s with
  | nil => rfl
  | cons z l ih => exact ih _ _

theorem offer_covers (e : UpEntry) (s : State) : (s.offer e).covers = s.covers := by
  unfold State.offer
  split
  · rfl
  · split
    · unfold State.markMissed
      split
      · split <;> rfl
      · rfl
    · rfl

/-- Work that starts no motion leaves every still cover alone. -/
theorem Work.still {w : Prop} {s t : State} (h : Work w False s t) (c : Fin 6) (hc : (s.cover c).moving = false) :
    t.cover c = s.cover c := by
  induction h with
  | refl s => rfl
  | trans _ _ a b =>
    have := a hc
    rw [b (by rw [this]; exact hc), this]
  | allocate s => rw [State.cover, State.cover, State.allocate, grantAlong_covers]
  | notice s k n a b => rw [State.cover, State.cover, State.notice, offer_covers]
  | cover s d v hm =>
    by_cases hd : d = c
    · subst hd; simp [hc] at hm
    · rw [cover_setCover_ne _ _ _ _ hd]
  | _ => rfl

/-! ### The mode -/

theorem grantAlong_mode (l : List (Fin 8)) (n : Nat) (s : State) :
    (grantAlong l n s).mode = s.mode ∧ (grantAlong l n s).dormantPending = s.dormantPending ∧
      (grantAlong l n s).watch = s.watch := by
  induction l generalizing n s with
  | nil => exact ⟨rfl, rfl, rfl⟩
  | cons z l ih => exact ih _ _

theorem offer_mode (e : UpEntry) (s : State) :
    (s.offer e).mode = s.mode ∧ (s.offer e).dormantPending = s.dormantPending ∧ (s.offer e).watch = s.watch := by
  unfold State.offer
  split
  · exact ⟨rfl, rfl, rfl⟩
  · split
    · unfold State.markMissed
      split
      · split <;> exact ⟨rfl, rfl, rfl⟩
      · exact ⟨rfl, rfl, rfl⟩
    · exact ⟨rfl, rfl, rfl⟩

/-- Work that changes no mode leaves the mode, the pending flag and the watch alone. -/
theorem Work.mode_kept {mo : Prop} {s t : State} (h : Work False mo s t) :
    t.mode = s.mode ∧ t.dormantPending = s.dormantPending ∧ t.watch = s.watch := by
  induction h with
  | refl s => exact ⟨rfl, rfl, rfl⟩
  | trans _ _ a b => exact ⟨b.1.trans a.1, b.2.1.trans a.2.1, b.2.2.trans a.2.2⟩
  | allocate s => exact grantAlong_mode ..
  | notice s k n a b => exact offer_mode ..
  | mode h => exact h.elim
  | pend h => exact h.elim
  | watch h => exact h.elim
  | _ => exact ⟨rfl, rfl, rfl⟩

end Sys2Proof.Machine
end

