-- ==== Sys2Proof/Laws/Queues.lean ====
section
/-! SUPPORT. The laws of the queues, the statuses, the latched conditions and the grants that the work of the jobs keeps. -/

namespace Sys2Proof.Machine

variable {w mo : Prop} {s t : State}

/-! ### The Upstream Queue -/

/-- The identities of the SAMPLE entries. -/
def sampleIds (q : List UpEntry) : List PointId := q.filterMap UpEntry.sampleId

/-- R48: at most 64 entries, and never two SAMPLE entries with the same identity. -/
def upstreamLawful (q : List UpEntry) : Prop := q.length ≤ upstreamLimit ∧ (sampleIds q).Nodup

theorem grantAlong_upstream (l : List (Fin 8)) (n : Nat) (s : State) : (grantAlong l n s).upstream = s.upstream := by
  induction l generalizing n s with
  | nil => rfl
  | cons z l ih => exact ih _ _

@[simp] theorem markMissed_upstream (id : PointId) (s : State) : (s.markMissed id).upstream = s.upstream := by
  unfold State.markMissed
  split
  · split <;> rfl
  · rfl

/-- What an eviction removes: the first SAMPLE entry, and nothing else. -/
theorem evictSample_spec (q : List UpEntry) {id : PointId} {r : List UpEntry} (h : evictSample q = some (id, r)) :
    ∃ a e b, q = a ++ e :: b ∧ r = a ++ b ∧ e.sampleId = some id ∧ ∀ x ∈ a, x.sampleId = none := by
  induction q generalizing r with
  | nil => simp [evictSample] at h
  | cons e q ih =>
    unfold evictSample at h
    split at h
    · next i he =>
      simp only [Option.some.injEq, Prod.mk.injEq] at h
      exact ⟨[], e, q, rfl, h.2.symm, h.1 ▸ he, by simp⟩
    · next he =>
      cases hq : evictSample q with
      | none => simp [hq] at h
      | some p =>
        obtain ⟨i, r'⟩ := p
        simp only [hq, Option.map_some, Option.some.injEq, Prod.mk.injEq] at h
        obtain ⟨a, x, b, h1, h2, h3, h4⟩ := ih (h.1 ▸ hq)
        refine ⟨e :: a, x, b, by simp [h1], by rw [← h.2, h2]; rfl, h3, ?_⟩
        simp only [List.mem_cons, forall_eq_or_imp]
        exact ⟨he, h4⟩

/-- No eviction finds a SAMPLE entry where there is none. -/
theorem evictSample_none (q : List UpEntry) : evictSample q = none ↔ ∀ e ∈ q, e.sampleId = none := by
  induction q with
  | nil => simp [evictSample]
  | cons e q ih =>
    unfold evictSample
    split
    · next i he => simp [he]
    · next he => simp [he, ih]

/-- An offered NOTICE or ECHO keeps the queue lawful. -/
theorem offer_lawful (e : UpEntry) (he : e.sampleId = none) (h : upstreamLawful s.upstream) :
    upstreamLawful (s.offer e).upstream := by
  unfold State.offer
  split
  · next hl =>
    refine ⟨by simp; omega, ?_⟩
    simpa [sampleIds, he] using h.2
  · split
    · next r hr =>
      obtain ⟨id, r⟩ := r
      obtain ⟨a, x, b, h1, h2, h3, -⟩ := evictSample_spec _ hr
      have hlen := h.1
      have hnd := h.2
      rw [h1] at hlen hnd
      simp only [markMissed_upstream]
      subst h2
      simp only [List.length_append, List.length_cons] at hlen
      refine ⟨by simp; omega, ?_⟩
      simp only [sampleIds, List.filterMap_append, List.filterMap_cons, h3, he, List.filterMap_nil,
        List.append_nil] at hnd ⊢
      exact hnd.sublist (List.Sublist.append_left (List.sublist_cons_self _ _) _)
    · exact h

/-- An entry that is no SAMPLE stays when another is offered. -/
theorem offer_stays (e x : UpEntry) (hx : x.sampleId = none) (h : x ∈ s.upstream) : x ∈ (s.offer e).upstream := by
  unfold State.offer
  split
  · exact List.mem_append_left _ h
  · split
    · next r hr =>
      obtain ⟨id, r⟩ := r
      obtain ⟨a, y, b, h1, h2, h3, -⟩ := evictSample_spec _ hr
      rw [h1] at h
      subst h2
      simp only [List.mem_append, List.mem_cons] at h
      have : x ≠ y := fun k => by rw [k, h3] at hx; cases hx
      simp only [markMissed_upstream, List.mem_append]
      rcases h with h | h | h
      · exact .inl (.inl h)
      · exact (this h).elim
      · exact .inl (.inr h)
    · exact h

theorem Work.upstream_lawful (h : Work w mo s t) (hs : upstreamLawful s.upstream) : upstreamLawful t.upstream := by
  induction h with
  | refl s => exact hs
  | trans _ _ a b => exact b (a hs)
  | allocate s => rw [State.allocate, grantAlong_upstream]; exact hs
  | notice s k n a b => exact offer_lawful _ rfl hs
  | _ => exact hs

/-- An ECHO or a NOTICE that stands in the queue stays there whatever the jobs do. -/
theorem Work.entry_stays (h : Work w mo s t) (x : UpEntry) (hx : x.sampleId = none) (hs : x ∈ s.upstream) :
    x ∈ t.upstream := by
  induction h with
  | refl s => exact hs
  | trans _ _ a b => exact b (a hs)
  | allocate s => rw [State.allocate, grantAlong_upstream]; exact hs
  | notice s k n a b => exact offer_stays _ _ hx hs
  | _ => exact hs

/-! ### Send queues -/

/-- R38: at most 8 entries and at most one for any point. -/
def queueLawful (q : List SendEntry) : Prop := q.length ≤ sendLimit ∧ (q.map (·.point)).Nodup

theorem enqueue_points (e : SendEntry) (q : List SendEntry) :
    (enqueue e q).map (·.point) = if queued q e.point then q.map (·.point) else q.map (·.point) ++ [e.point] := by
  unfold enqueue
  split
  · rw [List.map_map]
    apply List.map_congr_left
    intro x _
    simp only [Function.comp_apply]
    split
    · next h => exact h.symm
    · rfl
  · simp

theorem enqueue_lawful (e : SendEntry) (q : List SendEntry) (h : queueLawful q)
    (hr : queued q e.point = true ∨ q.length < sendLimit) : queueLawful (enqueue e q) := by
  have hl : (enqueue e q).length = ((enqueue e q).map (·.point)).length := by simp
  unfold queueLawful
  rw [hl, enqueue_points]
  split
  · exact ⟨by simpa using h.1, h.2⟩
  · next hq =>
    refine ⟨by simp; simp [hq] at hr; omega, ?_⟩
    rw [List.nodup_append]
    refine ⟨h.2, by simp, ?_⟩
    intro a ha b hb
    simp only [List.mem_singleton] at hb
    subst hb
    intro k
    subst k
    apply hq
    simp only [queued, List.any_eq_true, decide_eq_true_eq]
    simpa using ha

/-- A SET placed where there is room keeps every queue lawful. -/
theorem place_lawful (e : SendEntry) (h : ∀ g, queueLawful (s.segment g).queue) (hr : s.queueFull e.point = false)
    (g : Fin 4) : queueLawful ((s.place e).segment g).queue := by
  rw [segment_place]
  split
  · next hg =>
    subst hg
    refine enqueue_lawful _ _ (h _) ?_
    simp only [State.queueFull, Bool.and_eq_false_iff, Bool.not_eq_false', decide_eq_false_iff_not, Nat.not_le] at hr
    exact hr
  · exact h g

theorem Work.queues_lawful (h : Work w mo s t) (hs : ∀ g, queueLawful (s.segment g).queue) :
    ∀ g, queueLawful (t.segment g).queue := by
  induction h with
  | refl s => exact hs
  | trans _ _ a b => exact b (a hs)
  | allocate s => intro g; rw [State.segment, State.allocate, grantAlong_segs]; exact hs g
  | notice s k n a b => intro g; rw [State.segment, notice_segs]; exact hs g
  | place s e hr => exact place_lawful e hs hr
  | _ => exact hs

/-! ### Statuses -/

/-- A status record is found by its identity whatever its fields. -/
theorem statusIn_map (l : List StatusRow) (id a : PointId) (f : PointStatus → PointStatus) :
    statusIn (l.map fun r => if r.id = a then { r with st := f r.st } else r) id =
      if id = a then (statusIn l id).map f else statusIn l id := by
  unfold statusIn
  induction l with
  | nil => simp
  | cons r l ih =>
    simp only [List.map_cons, List.find?_cons]
    by_cases hr : r.id = id
    · subst hr
      by_cases ha : r.id = a <;> simp [ha]
    · have h2 : (if r.id = a then { r with st := f r.st } else r).id = r.id := by split <;> rfl
      simp only [h2, hr, decide_false]
      exact ih

theorem status_modStatus (s : State) (id a : PointId) (f : PointStatus → PointStatus) :
    (s.modStatus a f).status id =
      if id = a ∧ (statusIn s.table id).isSome then f (s.status id) else s.status id := by
  unfold State.status State.modStatus
  dsimp only
  rw [statusIn_map]
  by_cases h : id = a
  · subst h
    cases hs : statusIn s.table id <;> simp
  · simp [h]

theorem grantAlong_table (l : List (Fin 8)) (n : Nat) (s : State) : (grantAlong l n s).table = s.table := by
  induction l generalizing n s with
  | nil => rfl
  | cons z l ih => exact ih _ _

/-- A status record with its flags as another's. -/
def sameButFlags (a b : PointStatus) : Prop := b = { a with resend := b.resend, missed := b.missed }

theorem sameButFlags.trans {a b c : PointStatus} (h : sameButFlags a b) (k : sameButFlags b c) : sameButFlags a c := by
  unfold sameButFlags at *
  rw [k, h]

theorem modStatus_flags (s : State) (id a : PointId) (f : PointStatus → PointStatus) (h : FlagsOnly f) :
    sameButFlags (s.status id) ((s.modStatus a f).status id) := by
  rw [status_modStatus]
  split
  · exact h _
  · rfl

theorem offer_flags (e : UpEntry) (s : State) (id : PointId) : sameButFlags (s.status id) ((s.offer e).status id) := by
  unfold State.offer
  split
  · rfl
  · split
    · unfold State.markMissed
      split
      · split
        · exact modStatus_flags { s with upstream := _ } id _ _ fun _ => rfl
        · rfl
      · rfl
    · rfl

/-- The jobs write the resend-wanted and forward-missed flags of a status record and nothing else of it. -/
theorem Work.status_kept (h : Work w mo s t) (id : PointId) : sameButFlags (s.status id) (t.status id) := by
  induction h with
  | refl s => rfl
  | trans _ _ a b => exact a.trans b
  | allocate s => simp [State.status, State.allocate, grantAlong_table, sameButFlags]
  | notice s k n a b => exact offer_flags _ { s with noticeSeq := _ } id
  | status s a f hf => exact modStatus_flags s id a f hf
  | _ => rfl

/-! ### Latched conditions -/

theorem grantAlong_latched (l : List (Fin 8)) (n : Nat) (s : State) : (grantAlong l n s).latched = s.latched := by
  induction l generalizing n s with
  | nil => rfl
  | cons z l ih => exact ih _ _

theorem Latched.holds_put (l : Latched) (c d : Condition) (b : Bool) :
    (l.put d b).holds c = if c = d then b else l.holds c := by
  cases d <;> cases c <;> rfl

theorem offer_latched (e : UpEntry) (s : State) :
    (s.offer e).latched = s.latched ∨ (s.offer e).latched = s.latched.put .queueOverrun true := by
  unfold State.offer
  split
  · exact .inl rfl
  · split
    · left
      unfold State.markMissed
      split
      · split <;> rfl
      · rfl
    · exact .inr rfl

/-- The jobs clear no latched condition. -/
theorem Work.latch_stays (h : Work w mo s t) (c : Condition) (hs : s.latched.holds c = true) :
    t.latched.holds c = true := by
  induction h with
  | refl s => exact hs
  | trans _ _ a b => exact b (a hs)
  | allocate s => rw [State.allocate, grantAlong_latched]; exact hs
  | notice s k n a b =>
    rcases offer_latched (.notice ⟨k, n, a, b, s.noticeSeq⟩) { s with noticeSeq := s.noticeSeq + 1 } with h | h
    · rw [State.notice, h]; exact hs
    · rw [State.notice, h, Latched.holds_put]; split <;> simp_all
  | raise s d _ => rw [State.raise, Latched.holds_put]; split <;> simp_all
  | _ => exact hs

/-- The jobs do not latch INPUT or LOAD_ABANDONED. -/
theorem Work.latch_others (h : Work w mo s t) (c : Condition) (hc : c = .input ∨ c = .loadAbandoned) :
    t.latched.holds c = s.latched.holds c := by
  induction h with
  | refl s => rfl
  | trans _ _ a b => exact b.trans a
  | allocate s => rw [State.allocate, grantAlong_latched]
  | notice s k n a b =>
    rcases offer_latched (.notice ⟨k, n, a, b, s.noticeSeq⟩) { s with noticeSeq := s.noticeSeq + 1 } with h | h
    · rw [State.notice, h]
    · rw [State.notice, h, Latched.holds_put]
      rcases hc with rfl | rfl <;> rfl
  | raise s d hd =>
    rw [State.raise, Latched.holds_put]
    split
    · next k => subst k; rcases hc with rfl | rfl <;> simp at hd
    · rfl
  | _ => rfl

/-! ### Trims, overrides and grants -/

theorem grantAlong_zone (l : List (Fin 8)) (n : Nat) (s : State) (z : Fin 8) :
    ∃ g, (grantAlong l n s).zone z = { s.zone z with grant := g } := by
  induction l generalizing n s with
  | nil => exact ⟨_, rfl⟩
  | cons y l ih =>
    obtain ⟨g, hg⟩ := ih (n - min (s.zone y).request n)
      (s.modZone y fun v => { v with grant := min (s.zone y).request n })
    refine ⟨g, hg.trans ?_⟩
    by_cases h : y = z
    · subst h; simp [State.modZone]
    · rw [State.modZone, zone_setZone_ne _ _ _ _ h]

/-- An allocation pass writes grants alone. -/
theorem allocate_zone (s : State) (z : Fin 8) : ∃ g, s.allocate.zone z = { s.zone z with grant := g } :=
  grantAlong_zone ..

theorem offer_zones (e : UpEntry) (s : State) : (s.offer e).zones = s.zones := by
  unfold State.offer
  split
  · rfl
  · split
    · unfold State.markMissed
      split
      · split <;> rfl
      · rfl
    · rfl

/-- The jobs write neither a trim nor an override. -/
theorem Work.trim_kept (h : Work w mo s t) (z : Fin 8) :
    (t.zone z).trim = (s.zone z).trim ∧ (t.zone z).override = (s.zone z).override := by
  induction h with
  | refl s => exact ⟨rfl, rfl⟩
  | trans _ _ a b => exact ⟨b.1.trans a.1, b.2.trans a.2⟩
  | allocate s => obtain ⟨g, hg⟩ := allocate_zone s z; rw [hg]; exact ⟨rfl, rfl⟩
  | notice s k n a b => rw [State.zone, State.zone, State.notice, offer_zones]; exact ⟨rfl, rfl⟩
  | zone s y v hv =>
    by_cases hy : y = z
    · subst hy; rw [zone_setZone_self]; exact ⟨hv.2.1, hv.2.2⟩
    · rw [zone_setZone_ne _ _ _ _ hy]; exact ⟨rfl, rfl⟩
  | _ => exact ⟨rfl, rfl⟩

end Sys2Proof.Machine
end

