-- ==== Sys2Proof/Laws/Covers.lean ====
section
/-! SUPPORT. What the covers' shared operations write: a halt and the halts of one event, the purge floors, and the moisture
fields of a computation. -/

namespace Sys2Proof.Machine

/-! ### Halts, R128 -/

/-- What no SET and no notice writes, of what a work level is read from, and the zones. -/
structure LightKept (s t : State) : Prop where
  zones : t.zones = s.zones
  lamps : t.lamps = s.lamps
  supplies : t.supplies = s.supplies

theorem LightKept.refl (s : State) : LightKept s s := ⟨rfl, rfl, rfl⟩

theorem LightKept.trans {s t u : State} (a : LightKept s t) (b : LightKept t u) : LightKept s u :=
  ⟨b.1.trans a.1, b.2.trans a.2, b.3.trans a.3⟩

theorem submit_lightKept (o : Owner) (id : PointId) (v : Int) (f : Nat) (t : State) :
    LightKept t (State.submit o id v f t) := by
  unfold State.submit State.trySubmit
  split
  · exact ⟨rfl, rfl, rfl⟩
  · split <;> exact ⟨rfl, rfl, rfl⟩

theorem offer_supplies (e : UpEntry) (s : State) : (s.offer e).supplies = s.supplies := by
  unfold State.offer
  split
  · rfl
  · split
    · unfold State.markMissed; split
      · split <;> rfl
      · rfl
    · rfl

theorem notice_lightKept (k : NoticeKind) (n : Nat) (a b : Int) (s : State) : LightKept s (s.notice k n a b) :=
  ⟨offer_zones .., offer_lamps .., offer_supplies ..⟩

@[simp] theorem coverOpportunity_cover (c j : Fin 6) (r : CoverRec) (t : State) :
    (t.coverOpportunity c r).cover j = t.cover j := by
  simp only [State.coverOpportunity, State.sendDrive, State.sendFan]
  repeat' split
  all_goals simp

theorem coverOpportunity_lightKept (c : Fin 6) (r : CoverRec) (t : State) : LightKept t (t.coverOpportunity c r) := by
  have drive : LightKept t (t.sendDrive c r) := by
    unfold State.sendDrive; split
    · exact .refl t
    · exact submit_lightKept ..
  unfold State.coverOpportunity State.sendFan
  dsimp only
  repeat' split
  all_goals first
    | exact .refl t
    | exact drive
    | exact submit_lightKept ..
    | exact drive.trans (submit_lightKept ..)

theorem cover_of_covers {a b : State} (h : a.covers = b.covers) (c : Fin 6) : a.cover c = b.cover c := by
  rw [State.cover, State.cover, h]

theorem notice_covers (k : NoticeKind) (n : Nat) (a b : Int) (t : State) : (t.notice k n a b).covers = t.covers := offer_covers ..

/-- A halt writes the cover's state, its reason and its travel timer, and no other cover. -/
theorem haltCover_cover (c j : Fin 6) (r : CoverRec) (why : HaltReason) (e : CoverEvent) (s : State) :
    (s.haltCover c r why e).cover j =
      if j = c then { s.cover c with state := .halted, haltReason := some why, travel := (s.cover c).travel.stop }
      else s.cover j := by
  simp only [State.haltCover, coverOpportunity_cover, State.coverEvent, cover_of_covers (notice_covers ..), State.modCover,
    submit_cover, cover_setCover, if_true]
  by_cases h : j = c
  · subst h; simp
  · simp [h, Ne.symm h]

/-- A halt leaves the records of the active bank. -/
theorem haltCover_records (c : Fin 6) (r : CoverRec) (why : HaltReason) (e : CoverEvent) (s : State) :
    (s.haltCover c r why e).records = s.records :=
  (Work.haltCover (w := True) (mo := True) c r why e (.inl trivial) (.refl s)).keeps.records

theorem haltCover_lightKept (c : Fin 6) (r : CoverRec) (why : HaltReason) (e : CoverEvent) (s : State) :
    LightKept s (s.haltCover c r why e) := by
  unfold State.haltCover State.coverEvent
  refine LightKept.trans ?_ (coverOpportunity_lightKept ..)
  refine LightKept.trans ?_ (notice_lightKept ..)
  have still (f : Cover → Cover) (t : State) : LightKept t (t.modCover c f) := ⟨rfl, rfl, rfl⟩
  exact ((still _ s).trans (submit_lightKept ..)).trans (still ..)

theorem haltCover_workLevel (c : Fin 6) (r : CoverRec) (why : HaltReason) (e : CoverEvent) (s : State) (z : Fin 8) :
    (s.haltCover c r why e).workLevel z = s.workLevel z := by
  have h := haltCover_lightKept c r why e s
  have lamps : (s.haltCover c r why e).zoneLamps z = s.zoneLamps z := by
    simp only [State.zoneLamps, State.point, haltCover_records, h.lamps]
  have supplyOn : (s.haltCover c r why e).supplyOn z = s.supplyOn z := by
    simp only [State.supplyOn, State.supply, h.supplies]
  simp only [State.workLevel, lamps, supplyOn]

/-- A halt where its cause applies: of the cover alone, when it is in use. -/
theorem haltIf_cover (c j : Fin 6) (p : CoverRec → Cover → Bool) (why : HaltReason) (e : CoverEvent) (s : State) :
    (s.haltIf c p why e).cover j =
      if j = c ∧ (s.coverRec c).any (fun r => p r (s.cover c)) = true then
        { s.cover c with state := .halted, haltReason := some why, travel := (s.cover c).travel.stop }
      else s.cover j := by
  unfold State.haltIf
  cases hr : s.coverRec c with
  | none => simp
  | some r =>
    cases ha : p r (s.cover c) with
    | false => simp [ha]
    | true => simp [ha, haltCover_cover]

theorem haltIf_coverRec (c j : Fin 6) (p : CoverRec → Cover → Bool) (why : HaltReason) (e : CoverEvent) (s : State) :
    (s.haltIf c p why e).coverRec j = s.coverRec j := by
  unfold State.haltIf
  split
  · split
    · simp only [State.coverRec, haltCover_records]
    · rfl
  · rfl

/-- The halts of one event, in the order of a list of covers: each cover of the list that the cause applies to is halted, and
no other. `p` may read what a halt leaves alone. -/
theorem forEach_haltIf_cover (why : HaltReason) (e : CoverEvent) (p : State → CoverRec → Cover → Bool)
    (hp : ∀ c r t, p (State.haltCover c r why e t) = p t) (l : List (Fin 6)) (hl : l.Nodup) (s : State) (j : Fin 6) :
    (forEach l (fun c t => t.haltIf c (p t) why e) s).cover j =
      if j ∈ l ∧ (s.coverRec j).any (fun r => p s r (s.cover j)) = true then
        { s.cover j with state := .halted, haltReason := some why, travel := (s.cover j).travel.stop }
      else s.cover j := by
  induction l generalizing s with
  | nil => simp [forEach]
  | cons c l ih =>
    have hk : p (s.haltIf c (p s) why e) = p s := by
      unfold State.haltIf
      split
      · split
        · exact hp ..
        · rfl
      · rfl
    rw [List.nodup_cons] at hl
    change (forEach l (fun c t => t.haltIf c (p t) why e) (s.haltIf c (p s) why e)).cover j = _
    rw [ih hl.2, hk, haltIf_coverRec, haltIf_cover]
    by_cases hjc : j = c
    · subst hjc; simp [hl.1]
    · simp [hjc]

theorem allCovers_mem (c : Fin 6) : c ∈ allCovers := by revert c; decide

/-- A COVER_STOP or EVACUATE latch set halts every moving cover in use (R128). -/
theorem stopCovers_cover (s : State) (j : Fin 6) :
    s.stopCovers.cover j =
      if (s.coverRec j).isSome = true ∧ (s.cover j).moving = true then
        { s.cover j with state := .halted, haltReason := some .stopped, travel := (s.cover j).travel.stop }
      else s.cover j := by
  rw [State.stopCovers, forEach_haltIf_cover _ _ (fun _ _ v => v.moving) (fun _ _ _ => rfl) _ (by decide)]
  cases s.coverRec j <;> simp [allCovers_mem]

/-- The occupied flag delivered as set halts every CLOSING cover of the zone in use (R128). -/
theorem occupiedCovers_cover (z : Fin 8) (s : State) (j : Fin 6) :
    (s.occupiedCovers z).cover j =
      if (s.coverRec j).any (fun r => decide (r.zone = z.val ∧ (s.cover j).state = .closing)) = true then
        { s.cover j with state := .halted, haltReason := some .occupied, travel := (s.cover j).travel.stop }
      else s.cover j := by
  rw [State.occupiedCovers, forEach_haltIf_cover _ _ (fun _ r v => decide (r.zone = z.val ∧ v.state = .closing))
    (fun _ _ _ => rfl) _ (by decide)]
  simp [allCovers_mem]

/-- A lamp retarget in a zone halts every moving cover in use of the zone whose work-light minimum the work level is below
(R128). -/
theorem darkCovers_cover (z : Fin 8) (s : State) (j : Fin 6) :
    (s.darkCovers z).cover j =
      if (s.coverRec j).any (fun r =>
          decide (r.zone = z.val) && (s.cover j).moving && decide (s.workLevel z < r.workLight)) = true then
        { s.cover j with state := .halted, haltReason := some .dark, travel := (s.cover j).travel.stop }
      else s.cover j := by
  rw [State.darkCovers, forEach_haltIf_cover _ _
    (fun t r v => decide (r.zone = z.val) && v.moving && decide (t.workLevel z < r.workLight))
    (fun _ _ _ => by simp only [haltCover_workLevel]) _ (by decide)]
  simp [allCovers_mem]

/-! ### The purge floors, R135 -/

theorem formFloors_zone (z y : Fin 8) (s : State) :
    (s.formFloors z).zone y =
      if y = z then { s.zone z with oaFloor := s.floorOf z (·.oaFloor), fanFloor := s.floorOf z (·.fanFloor) }
      else s.zone y := by
  by_cases h : y = z
  · subst h; simp [State.formFloors, State.modZone]
  · simp [State.formFloors, State.modZone, h, zone_setZone_ne (h := Ne.symm h)]

@[simp] theorem formFloors_cover (z : Fin 8) (j : Fin 6) (s : State) : (s.formFloors z).cover j = s.cover j := rfl

/-- The start of a purge run writes the run's fields of its cover. -/
theorem startPurge_cover (c j : Fin 6) (r : CoverRec) (s : State) :
    (s.startPurge c r).cover j =
      if j = c then
        { s.cover c with
          valid := false, runFailed := false, confirmed := false, validity := (s.cover c).validity.stop
          duration := (s.cover c).duration.start r.duration, purge := .running }
      else s.cover j := by
  simp only [State.startPurge, coverOpportunity_cover, formFloors_cover, State.modCover, cover_setCover, submit_cover]
  by_cases h : j = c
  · subst h; simp
  · simp [h, Ne.symm h]

/-! ### The moisture fields, R86 -/

theorem moistZone_held (t rh surface : Option Int) (stale : Bool) (v : Zone) (h : t = none ∨ rh = none) :
    moistZone t rh surface stale v = { v with degraded := true } := by
  rcases h with h | h <;> subst h
  · rfl
  · cases t <;> rfl

theorem moistZone_dewOnly (t rh : Int) (stale : Bool) (v : Zone) :
    moistZone (some t) (some rh) none stale v =
      { v with
        air := (airStages t rh).temp, rh := (airStages t rh).rh, dew := (airStages t rh).dew, degraded := stale
        dewLow := (airStages t rh).dewLow, rangeT := (airStages t rh).clamped, marginValid := false } := rfl

theorem moistZone_full (t rh f : Int) (stale : Bool) (v : Zone) :
    moistZone (some t) (some rh) (some f) stale v =
      { v with
        air := (airStages t rh).temp, rh := (airStages t rh).rh, dew := (airStages t rh).dew, degraded := stale
        dewLow := (airStages t rh).dewLow, rangeT := (airStages t rh).clamped || clampTo (-2000) 6000 f != f
        margin := clampTo (-2000) 6000 f - (airStages t rh).dew, marginValid := true } := rfl

end Sys2Proof.Machine
end

