-- ==== Sys2Proof/Laws/Outputs.lean ====
section
/-! SUPPORT. What a submitted SET and a queued notice leave behind, said once for the statements that claim a SET "placed or
marked for resend" and a notice "where there is room", and the one state that CLEAR empties to. -/

namespace Sys2Proof.Machine

/-! ### Notices, R50 -/

/-- A notice made where there is room is the last entry. -/
theorem notice_upstream (k : NoticeKind) (n : Nat) (a b : Int) {s : State} (h : s.upstream.length < 64) :
    (s.notice k n a b).upstream = s.upstream ++ [.notice ⟨k, n, a, b, s.noticeSeq⟩] := by
  simp [State.notice, State.offer, upstreamLimit, h]

theorem notice_hasNotice (k : NoticeKind) (n : Nat) (a b : Int) {s : State} (h : s.upstream.length < 64) :
    hasNotice (s.notice k n a b) k n a b s.noticeSeq := by
  simp [hasNotice, notice_upstream k n a b h]

/-- A notice stays in the queue over whatever else is queued. -/
theorem hasNotice_kept {k : NoticeKind} {i : Nat} {a b : Int} {n : Byte} {s t : State} (h : hasNotice s k i a b n)
    (kept : keepsNotices s t) : hasNotice t k i a b n := kept _ h rfl

/-! ### SETs, R58 and R60 -/

/-- A SET for a point is queued, or the point is marked for resend. -/
def served (s : State) (id : PointId) (v : Int) (o : Owner) : Prop := hasSet s id v o ∨ (s.status id).resend = true

theorem mem_enqueue_self (e : SendEntry) (q : List SendEntry) : e ∈ enqueue e q := by
  unfold enqueue
  split
  · next h =>
    simp only [queued, List.any_eq_true, decide_eq_true_eq] at h
    obtain ⟨x, hx, hp⟩ := h
    exact List.mem_map.mpr ⟨x, hx, by simp [hp]⟩
  · simp

theorem mem_enqueue_other {e x : SendEntry} {q : List SendEntry} (hx : x ∈ q) (hp : x.point ≠ e.point) :
    x ∈ enqueue e q := by
  unfold enqueue
  split
  · exact List.mem_map.mpr ⟨x, hx, by simp [hp]⟩
  · exact List.mem_append_left _ hx

theorem place_hasSet (e : SendEntry) (s : State) : hasSet (s.place e) e.point (s.envelope e.point e.value) e.origin := by
  refine ⟨{ e with value := s.envelope e.point e.value, fade := min e.fade 600 }, ?_, rfl, rfl, rfl⟩
  rw [segment_place, if_pos rfl]
  exact mem_enqueue_self _ _

/-- A SET submitted for a defined actuator is placed at its envelope, or the point is marked for resend. -/
theorem submit_served (o : Owner) (id : PointId) (v : Int) (f : Nat) {s : State} {d : PointDef} (hd : s.point id = some d)
    (act : d.isActuator = true) (row : (statusIn s.table id).isSome = true) :
    served (s.submit o id v f) id (clampTo d.low d.high v) o := by
  unfold State.submit State.trySubmit
  rw [hd]
  dsimp only
  split
  · refine .inr ?_
    rw [State.wantResend, status_modStatus, if_pos ⟨rfl, row⟩]
  · refine .inl ?_
    have placed := place_hasSet ⟨id, v, f, o, 0⟩ s
    simp only [State.envelope, hd, act, if_true] at placed
    exact placed

/-- A SET submitted for a defined actuator is submitted in the words of the statements: queued whole, or withheld by what
still holds after it. -/
theorem submit_submitted (o : Owner) (v : Int) (f : Nat) {s : State} {d : PointDef} (hd : s.point d.id = some d)
    (act : d.isActuator = true) (row : (statusIn s.table d.id).isSome = true) :
    (s.submit o d.id v f).submitted o d v f := by
  unfold State.submit State.trySubmit
  rw [hd]
  dsimp only
  split
  · next why =>
    refine .inr ⟨?_, ?_⟩
    · rw [State.wantResend, status_modStatus, if_pos ⟨rfl, row⟩]
    · have cause : s.overrideInForce d = true ∨ s.nodePresent d.id = false ∨ s.queueFull d.id = true := by
        simpa [State.withheld, or_assoc] using why
      exact cause
  · refine .inl ?_
    change _ ∈ ((s.place ⟨d.id, v, f, o, 0⟩).segment (pointSeg d.id)).queue
    rw [segment_place, if_pos rfl]
    simp only [State.envelope, hd, act, if_true]
    exact mem_enqueue_self _ _

/-- A SET submitted for another point leaves what is queued or marked for this one. -/
theorem submit_served_other (o p : Owner) {id other : PointId} (v w : Int) (f : Nat) {s : State} (ne : id ≠ other)
    (h : served s id v o) : served (s.submit p other w f) id v o := by
  have flag (g : PointStatus → PointStatus) (t : State) : (t.modStatus other g).status id = t.status id := by
    rw [status_modStatus, if_neg (fun k => ne k.1)]
  unfold State.submit State.trySubmit
  split
  · exact h
  · split
    · exact h.imp (fun q => q) fun r => by rw [State.wantResend, flag]; exact r
    · refine h.imp (fun ⟨e, he, hp, hv, ho⟩ => ⟨e, ?_, hp, hv, ho⟩) fun r => by
        dsimp only; rw [flag]; exact r
      change e ∈ ((s.place ⟨other, w, f, p, 0⟩).segment (pointSeg id)).queue
      rw [segment_place]
      split
      · exact mem_enqueue_other he (hp ▸ ne)
      · exact he

theorem markMissed_resend (a id : PointId) (s : State) : ((s.markMissed a).status id).resend = (s.status id).resend := by
  unfold State.markMissed
  split
  · split
    · rw [status_modStatus]; split <;> rfl
    · rfl
  · rfl

/-- A notice leaves what is queued or marked. -/
theorem notice_served (k : NoticeKind) (n : Nat) (a b : Int) {id : PointId} {v : Int} {o : Owner} {s : State}
    (h : served s id v o) : served (s.notice k n a b) id v o := by
  refine h.imp (fun q => ?_) fun r => ?_
  · obtain ⟨e, he, rest⟩ := q
    exact ⟨e, by rw [State.segment, notice_segs]; exact he, rest⟩
  · unfold State.notice State.offer
    split
    · exact r
    · split
      · rw [markMissed_resend]; exact r
      · exact r

/-! ### The table's rows -/

/-- No write of a status makes or removes a row. -/
theorem modStatus_row (a id : PointId) (f : PointStatus → PointStatus) (s : State) :
    (statusIn (s.modStatus a f).table id).isSome = (statusIn s.table id).isSome := by
  rw [State.modStatus, statusIn_map]
  split
  · exact Option.isSome_map
  · rfl

theorem markMissed_row (a id : PointId) (s : State) :
    (statusIn (s.markMissed a).table id).isSome = (statusIn s.table id).isSome := by
  unfold State.markMissed
  split
  · split
    · exact modStatus_row ..
    · rfl
  · rfl

theorem notice_row (k : NoticeKind) (n : Nat) (a b : Int) (id : PointId) (s : State) :
    (statusIn (s.notice k n a b).table id).isSome = (statusIn s.table id).isSome := by
  unfold State.notice State.offer
  split
  · rfl
  · split
    · exact markMissed_row ..
    · rfl

theorem submit_row (o : Owner) (p : PointId) (v : Int) (f : Nat) (id : PointId) (s : State) :
    (statusIn (s.submit o p v f).table id).isSome = (statusIn s.table id).isSome := by
  unfold State.submit State.trySubmit
  split
  · rfl
  · split <;> exact modStatus_row ..

theorem submit_records (o : Owner) (p : PointId) (v : Int) (f : Nat) (s : State) :
    (s.submit o p v f).records = s.records := by
  unfold State.submit State.trySubmit
  split
  · rfl
  · split <;> rfl

/-! ### Output opportunities and halts, R128 and R137 -/

/-- An output opportunity leaves the drive's current output queued, or the drive marked, where it was so before. -/
theorem coverOpportunity_served (c : Fin 6) (r : CoverRec) {s : State} {d : PointDef} (hd : s.point r.drive = some d)
    (act : d.isActuator = true) (row : (statusIn s.table r.drive).isSome = true) (ne : r.fan ≠ r.drive)
    (bar : (s.cover c).openBarred = false)
    (h : served s r.drive (clampTo d.low d.high (s.cover c).driveOutput) .cover) :
    served (s.coverOpportunity c r) r.drive (clampTo d.low d.high (s.cover c).driveOutput) .cover := by
  have drive : served (s.sendDrive c r) r.drive (clampTo d.low d.high (s.cover c).driveOutput) .cover := by
    rw [State.sendDrive, bar]; exact submit_served _ _ _ _ hd act row
  unfold State.coverOpportunity
  dsimp only
  split <;> split
  · exact submit_served_other _ _ _ _ _ (Ne.symm ne) drive
  · exact drive
  · exact submit_served_other _ _ _ _ _ (Ne.symm ne) h
  · exact h

/-- A halt leaves SET 0 for the drive queued, or the drive marked (R128). -/
theorem haltCover_served (c : Fin 6) (r : CoverRec) (why : HaltReason) (e : CoverEvent) {s : State} {d : PointDef}
    (hd : s.point r.drive = some d) (act : d.isActuator = true) (row : (statusIn s.table r.drive).isSome = true)
    (ne : r.fan ≠ r.drive) : served (s.haltCover c r why e) r.drive (clampTo d.low d.high 0) .cover := by
  unfold State.haltCover
  dsimp only
  generalize ht : State.submit .cover r.drive 0 0 (s.modCover c fun v => { v with travel := v.travel.stop }) = t
  have served_t : served t r.drive (clampTo d.low d.high 0) .cover := by
    rw [← ht]; exact submit_served .cover r.drive 0 0 (s := s.modCover c _) hd act row
  have records_t : t.records = s.records := by rw [← ht, submit_records]; rfl
  have row_t : (statusIn t.table r.drive).isSome = true := by rw [← ht, submit_row]; exact row
  generalize hw : t.modCover c (fun v => { v with state := .halted, haltReason := some why }) = w
  have state_w : (w.cover c).state = .halted := by rw [← hw]; simp [State.modCover]
  have served_w : served w r.drive (clampTo d.low d.high 0) .cover := by rw [← hw]; exact served_t
  have records_w : w.records = s.records := by rw [← hw]; exact records_t
  have row_w : (statusIn w.table r.drive).isSome = true := by rw [← hw]; exact row_t
  have cover_x : (w.coverEvent c r e).cover c = w.cover c := cover_of_covers (notice_covers ..) c
  have out : ((w.coverEvent c r e).cover c).driveOutput = 0 := by rw [cover_x, Cover.driveOutput, state_w]
  have kept := coverOpportunity_served c r (s := w.coverEvent c r e) (d := d)
    (by rw [State.point, State.coverEvent, (notice_keeps ..).records, records_w]; exact hd) act
    (by rw [State.coverEvent, notice_row]; exact row_w) ne (by rw [cover_x, Cover.openBarred, state_w]; rfl)
  rw [out] at kept
  exact kept (notice_served _ _ _ _ served_w)

/-! ### CLEAR, R189 -/

/-- What CLEAR empties is one state, that of `clearLink`. -/
theorem emptied_iff (s t : State) : emptied s t ↔ t = s.clearLink := by
  have node (g : Fin 4) (n : Fin 31) : (s.clearLink.segment g).nodes[n] =
      if (s.segment g).nodes[n].state = .present then { (s.segment g).nodes[n] with joined := true }
      else (s.segment g).nodes[n] := by
    simp [State.clearLink, State.segment, mapVector, Segment.cleared]
    rfl
  have seg (g : Fin 4) : s.clearLink.segment g = { s.segment g with
      queue := [], crcCount := 0, missCount := 0, nodes := (s.clearLink.segment g).nodes } := by
    simp [State.clearLink, State.segment, mapVector, Segment.cleared]
  constructor
  · rintro ⟨h, segs⟩
    have same : t.segs = s.clearLink.segs := by
      refine Vector.ext fun i hi => ?_
      have nodes : (t.segment ⟨i, hi⟩).nodes = (s.clearLink.segment ⟨i, hi⟩).nodes :=
        Vector.ext fun j hj => ((segs ⟨i, hi⟩).2 ⟨j, hj⟩).trans (node ⟨i, hi⟩ ⟨j, hj⟩).symm
      exact ((segs ⟨i, hi⟩).1.trans (by rw [nodes])).trans (seg ⟨i, hi⟩).symm
    rw [h, same]; rfl
  · rintro rfl
    exact ⟨rfl, fun g => ⟨seg g, node g⟩⟩

end Sys2Proof.Machine
end

