-- ==== Sys2Proof/Laws/Trunk.lean ====
section
/-! SUPPORT. The shared operations around a command: taking a trunk frame, answering it, and the deliveries to the Mode
Controller that follow. -/

namespace Sys2Proof.Machine

/-! ### The step -/

theorem step_front (c : Instr) (rest : List Instr) (s : State) :
    step { s with pending := c :: rest } = exec c { s with pending := rest } := rfl

theorem step_idle (s : State) (h : s.pending = []) : step s = .next s := by simp [step, h]

/-! ### A frame of the station -/

theorem onTrunk_hunting (hd : TrunkHdr) (f : State → State × Answer) {s : State} (h : s.tx = .hunting) :
    onTrunk hd f s = (settle s.taken (f s.taken).1).reply hd false (f s.taken).2 := by
  simp [onTrunk, whileHunting, h]

theorem onTrunk_busy (hd : TrunkHdr) (f : State → State × Answer) {s : State} (h : s.tx ≠ .hunting) :
    onTrunk hd f s = s := by
  unfold onTrunk whileHunting
  split
  · contradiction
  · rfl

theorem whileHunting_busy (f : State → State) {s : State} (h : s.tx ≠ .hunting) : whileHunting f s = s := by
  unfold whileHunting
  split
  · contradiction
  · rfl

theorem whileHunting_hunting (f : State → State) {s : State} (h : s.tx = .hunting) : whileHunting f s = f s := by
  simp [whileHunting, h]

/-- A taken frame changes the run state and the trunk-silence timer, and nothing else. -/
theorem taken_eq (s : State) : s.taken = { s with runState := s.taken.runState, silence := s.taken.silence } := by
  unfold State.taken
  split <;> rfl

theorem taken_bypass {s : State} (h : s.runState = .bypass) : s.taken = s := by simp [State.taken, h]

theorem taken_runs {s : State} (h : s.runState ≠ .bypass) :
    s.taken = { s with runState := .running, silence := s.silence.start silencePair } := by
  unfold State.taken
  split
  · contradiction
  · rfl

theorem taken_runState_bypass (s : State) : s.taken.runState = .bypass ↔ s.runState = .bypass := by
  unfold State.taken
  split <;> simp_all

/-! ### Deliveries -/

/-- The held actions are the latches'. -/
theorem held_congr {a b : State} (h : a.inputs = b.inputs) (x : Action) : a.held x = b.held x := by
  have hin : ∀ i, a.input i = b.input i := fun i => by rw [State.input, State.input, h]
  unfold State.held
  congr 1
  funext i
  rw [hin i]

/-- Nothing arises between states with the same covers, zones and latches. -/
theorem arisen_none {before after : State} (hc : after.covers = before.covers) (hz : after.zones = before.zones)
    (hi : after.inputs = before.inputs) : arisen before after = none := by
  have hcov : ∀ c, after.cover c = before.cover c := fun c => by simp [State.cover, hc]
  have hzon : ∀ z, after.zone z = before.zone z := fun z => by simp [State.zone, hz]
  have hev : after.evacuating = before.evacuating := held_congr hi _
  simp [arisen, hcov, hzon, hev]

/-- Nothing clears between states with the same covers, zones and latches. -/
theorem cleared_none {before after : State} (hc : after.covers = before.covers) (hz : after.zones = before.zones)
    (hi : after.inputs = before.inputs) : cleared before after = false := by
  have hcov : ∀ c, after.cover c = before.cover c := fun c => by simp [State.cover, hc]
  have hzon : ∀ z, after.zone z = before.zone z := fun z => by simp [State.zone, hz]
  have hev : after.evacuating = before.evacuating := held_congr hi _
  simp [cleared, hcov, hzon, hev]

/-- What arises is all that wakes the hall, and what clears is all that calls for a re-check. -/
theorem settle_quiet {before after : State} (ha : arisen before after = none) (hc : cleared before after = false) :
    settle before after = after := by
  have hw : wake before after = after := by unfold wake; split <;> simp [ha]
  simp [settle, hw, recheck, hc]

/-- An event that leaves covers, zones and latches alone delivers nothing to the Mode Controller. -/
theorem settle_same {before after : State} (hc : after.covers = before.covers) (hz : after.zones = before.zones)
    (hi : after.inputs = before.inputs) : settle before after = after :=
  settle_quiet (arisen_none hc hz hi) (cleared_none hc hz hi)

theorem settle_keeps (before after : State) : JobsKeep after (settle before after) :=
  (Work.settle (mo := True) before .self).keeps

end Sys2Proof.Machine
end

