-- ==== Sys2Proof/WellFormed.lean ====
section
/-! DEFINITION. The operands a frame, a pin or a tick can carry: the widths of Tables 12-1 to 12-7 and the payload limit.
The meanings are total; this says which terms are commands the outside can send. -/

namespace Sys2Proof

/-- A signed 32-bit value. -/
def value32 (v : Int) : Bool := decide (-2147483648 ≤ v ∧ v < 2147483648)

/-- A 16-bit number. -/
def value16 (n : Nat) : Bool := decide (n < 65536)

/-- A byte. -/
def value8 (n : Nat) : Bool := decide (n < 256)

/-- A field identity: segment 0..3, node 0..30, channel 0..15. -/
def fieldPoint (p : PointId) : Bool := decide (p.seg ≤ 3 ∧ p.node ≤ 30 ∧ p.chan ≤ 15)

/-- A step record of a LOOP_WRITE, Table 12-7. -/
def wireStep (r : StepRecord) : Bool :=
  value8 r.scene && value16 r.fade && value8 r.prescale && decide (1 ≤ r.count ∧ r.count ≤ 256)

/-- The request codes of Table 12-3. -/
def requestCodes : List Nat :=
  [0x01, 0x02, 0x03, 0x04, 0x05, 0x06, 0x07, 0x08, 0x09, 0x0A, 0x10, 0x11, 0x12, 0x20, 0x21, 0x22, 0x30, 0x31, 0x32, 0x33]

/-- A command the outside can send. -/
def Instr.wf : Instr → Bool
  | .trunkFrameOtherKind _ kind => decide (kind.toNat ∉ [0x22, 0x40, 0x50])
  | .stationSet _ value fade => value32 value && value16 fade
  | .modeRequest _ value => value32 value
  | .plantCapacity _ value => value32 value
  | .splitPosition _ value => value32 value
  | .cueSelect _ _ value => value32 value
  | .cueAdvance _ _ value => value32 value
  | .zoneOverride _ _ value => value32 value
  | .zoneTrim _ _ value => value32 value
  | .loopback _ data => decide (1 ≤ data.length ∧ data.length ≤ 39)
  | .acknowledgeCondition _ kind _ => decide (2 ≤ kind.toNat)
  | .loadRecord _ _ _ body => decide (body.length ≤ 36)
  | .paletteWrite _ values => decide (values.length ≤ 19) && values.all fun v => decide (0 ≤ v ∧ v < 65536)
  | .loopWrite _ _ _ steps => decide (steps.length ≤ 6) && steps.all wireStep
  | .unknownRequest _ code => decide (code.toNat ∉ requestCodes)
  | .sample _ _ _ _ value _ => value32 value
  | .echo _ _ _ _ value _ => value32 value
  | .echoMiss p => fieldPoint p
  | .timerCountTick (.echo p) => fieldPoint p
  | _ => true

end Sys2Proof
end

