-- ==== Sys2Proof/Tests/Slice0.lean ====
section
/-! SUPPORT. Tests: the WellFormed smoke, small tests of the commands and of the spec's own worked values, and for each
statement with hypotheses a state and operands that meet them, clause by clause. -/

open Sys2Proof Sys2Proof.Machine

namespace Sys2Proof.Tests

/- One theorem at a time: checked side by side, their threads together ask for more memory than a check has. -/
set_option Elab.async false

/-! ### Well-formed commands: one ill-formed term for each check -/

def hdr : TrunkHdr := { seg := 0, node := 4, chan := 10, seq := 9 }

theorem test_wf_kind : (Instr.trunkFrameOtherKind hdr 0x22).wf = false ∧ (Instr.trunkFrameOtherKind hdr 0x40).wf = false ∧
    (Instr.trunkFrameOtherKind hdr 0x50).wf = false ∧ (Instr.trunkFrameOtherKind hdr 0x23).wf = true := by decide

theorem test_wf_stationSet : (Instr.stationSet hdr 2147483648 0).wf = false ∧ (Instr.stationSet hdr (-2147483649) 0).wf = false ∧
    (Instr.stationSet hdr 0 65536).wf = false ∧ (Instr.stationSet hdr (-2147483648) 65535).wf = true := by decide

theorem test_wf_virtual : (Instr.modeRequest 0 2147483648).wf = false ∧ (Instr.plantCapacity 0 2147483648).wf = false ∧
    (Instr.splitPosition 0 2147483648).wf = false ∧ (Instr.cueSelect .a 0 2147483648).wf = false ∧
    (Instr.cueAdvance .b 0 2147483648).wf = false ∧ (Instr.zoneOverride 0 0 2147483648).wf = false ∧
    (Instr.zoneTrim 0 0 (-2147483649)).wf = false ∧ (Instr.modeRequest 0 3).wf = true := by decide

theorem test_wf_loopback : (Instr.loopback hdr []).wf = false ∧ (Instr.loopback hdr (List.replicate 40 0)).wf = false ∧
    (Instr.loopback hdr (List.replicate 39 0)).wf = true := by decide

theorem test_wf_acknowledge : (Instr.acknowledgeCondition hdr 0 0).wf = false ∧
    (Instr.acknowledgeCondition hdr 1 0).wf = false ∧ (Instr.acknowledgeCondition hdr 2 0).wf = true := by decide

theorem test_wf_loadRecord : (Instr.loadRecord hdr 0 0 (List.replicate 37 0)).wf = false ∧
    (Instr.loadRecord hdr 0 0 (List.replicate 36 0)).wf = true := by decide

theorem test_wf_paletteWrite : (Instr.paletteWrite hdr (List.replicate 20 0)).wf = false ∧
    (Instr.paletteWrite hdr [65536]).wf = false ∧ (Instr.paletteWrite hdr [-1]).wf = false ∧
    (Instr.paletteWrite hdr (List.replicate 19 65535)).wf = true := by decide

def step0 : StepRecord := { scene := 0, fade := 0, prescale := 1, count := 1, marks := 0 }

theorem test_wf_loopWrite : (Instr.loopWrite hdr 0 0 (List.replicate 7 step0)).wf = false ∧
    (Instr.loopWrite hdr 0 0 [{ step0 with scene := 256 }]).wf = false ∧
    (Instr.loopWrite hdr 0 0 [{ step0 with fade := 65536 }]).wf = false ∧
    (Instr.loopWrite hdr 0 0 [{ step0 with prescale := 256 }]).wf = false ∧
    (Instr.loopWrite hdr 0 0 [{ step0 with count := 0 }]).wf = false ∧
    (Instr.loopWrite hdr 0 0 [{ step0 with count := 257 }]).wf = false ∧
    (Instr.loopWrite hdr 0 0 (List.replicate 6 step0)).wf = true := by decide

theorem test_wf_unknownRequest : (Instr.unknownRequest hdr 0x12).wf = false ∧ (Instr.unknownRequest hdr 0x13).wf = true := by
  decide

theorem test_wf_field : (Instr.sample 0 4 0 0 2147483648 0).wf = false ∧ (Instr.echo 0 4 0 0 2147483648 0).wf = false ∧
    (Instr.echoMiss ⟨4, 0, 0⟩).wf = false ∧ (Instr.echoMiss ⟨3, 31, 0⟩).wf = false ∧ (Instr.echoMiss ⟨3, 30, 16⟩).wf = false ∧
    (Instr.timerCountTick (.echo ⟨4, 0, 0⟩)).wf = false ∧ (Instr.echoMiss ⟨3, 30, 15⟩).wf = true := by decide

/-! ### A small installation: one zone, one cover, one lamp with its supply, on node 4 of segment A -/

def pt (c : Nat) : PointId := ⟨0, 4, c⟩

def sensor (c : Nat) (q : Quantity) (hi : Int) : PointDef :=
  { id := pt c, role := .sensor q, zone := some 0, owner := none, low := -2000, high := hi, policy := .all, n := 0, delta := 0
    stale := 30, override := false, strip := 0, lampClass := .ambient, watts := 0, coverNo := 0 }

def actuator (c : Nat) (k : ActKind) (o : Owner) (hi : Int) : PointDef :=
  { id := pt c, role := .actuator k, zone := some 0, owner := some o, low := 0, high := hi, policy := .none, n := 0, delta := 0
    stale := 30, override := false, strip := 0, lampClass := .ambient, watts := 100, coverNo := 0 }

def zone0 : ZoneRec :=
  { index := 0, inUse := true, period := 10, lampGain := 20, waterOffset := 100, setback := 200, dewLimit := 1500
    marginTarget := 300, weight := 1000, credit := 200, approach := 300, occupiedOa := 250, dehumFan := 400, fallback := 300
    setMin := 2000, setMax := 3000, heatBand := 200, dehumBand := 500, hpOn := 400, hpOff := 200, dayFan := 500
    nightFan := 300 }

def cover0 : CoverRec :=
  { index := 0, inUse := true, zone := 0, drive := pt 5, position := pt 3, fan := pt 6, travel := 60, interval := ⟨60, 10⟩
    duration := ⟨1, 30⟩, validity := ⟨1, 60⟩, workLight := 300, oaFloor := 300, fanFloor := 600 }

def input0 (a : Action) (l : Latching) : InputRec :=
  { index := 0, enabled := true, sense := .activeHigh, latching := l, action := a }

def heat : PointDef := { actuator 9 .heatValve .climate 1000 with override := true }

def recordsWith (i : InputRec) : List Stored :=
  [⟨0, .hall { hold := ⟨1, 100⟩, supplyOff := ⟨1, 61⟩, watch := ⟨60, 5⟩, darkFade := 50 }⟩,
   ⟨1, .plant { order := [0, 1, 2, 3], pairBits := 0, capacity := 1000 }⟩, ⟨2, .zone zone0⟩, ⟨3, .cover cover0⟩,
   ⟨4, .input i⟩, ⟨5, .point (sensor 0 .airTemp 6000)⟩, ⟨6, .point (sensor 1 .airRh 1000)⟩] ++
  [⟨7, .point (sensor 2 .surfaceTemp 6000)⟩, ⟨8, .point (sensor 3 .coverPosition 1000)⟩,
   ⟨9, .point { sensor 4 .occupancy 1 with policy := .onChange, delta := 1 }⟩, ⟨10, .point (actuator 5 .coverDrive .cover 2)⟩,
   ⟨11, .point (actuator 6 .purgeFan .cover 1)⟩, ⟨12, .point (actuator 7 .lamp .lighting 1000)⟩] ++
  [⟨13, .point (actuator 8 .lampSupply .lighting 1)⟩, ⟨14, .point heat⟩, ⟨15, .point (actuator 10 .generic .station 500)⟩,
   ⟨16, .point { sensor 11 .generic 1000 with policy := .everyN, n := 4 }⟩]

def records0 : List Stored := recordsWith (input0 .coverStop .edge)

/-- BYPASS with bank 0 READY. -/
def ready : State := { State.reset with banks := #v[{ state := .ready, records := records0 }, Bank.blank] }

def fullMinute : Timer := { running := true, prescale := 60, setting := 1, prescaler := 60, count := 1 }

/-- RUNNING from the records, every point GOOD at 0 and node 4 PRESENT. -/
def runningWith (rs : List Stored) : State :=
  { State.reset with
    runState := .running, silence := fullMinute, active := some 0
    banks := #v[{ state := .active, records := rs }, { state := .ready, records := rs }]
    table := (pointsIn rs).map fun d => ⟨d.id, { PointStatus.unknown with quality := .good }⟩
    segs := State.reset.segs.set 0
      { State.reset.segs[(0 : Fin 4)] with
        nodes := State.reset.segs[(0 : Fin 4)].nodes.set 4 { state := .present, misses := 0, joined := false } }
    mode := some .staffed, capacity := some 1000, priority := allZones, lamps := [⟨pt 7, Lamp.dark⟩]
    supplies := State.reset.supplies.set 0 (some Supply.start)
    zones := State.reset.zones.set 0 { Zone.start with evalTimer := { running := true, prescale := 1, setting := 10, prescaler := 1, count := 10 } } }

def live : State := runningWith records0

/-- A timer whose next tick expires it. -/
def dueTimer : Timer := { running := true, prescale := 1, setting := 5, prescaler := 1, count := 1 }

def after : Result → State
  | .next t => t
  | _ => State.reset

/-- The lamps of the zone full on and its supply ON: no cover is dark. -/
def lit : State :=
  { live with
    lamps := [⟨pt 7, { Lamp.dark with start := 1000, target := 1000 }⟩]
    supplies := live.supplies.set 0 (some { Supply.start with state := .on }) }

def withCover (v : Cover) (s : State) : State := s.setCover 0 v

def withStatus (c : Nat) (f : PointStatus → PointStatus) (s : State) : State := s.modStatus (pt c) f

def withLatch (a : Action) (s : State) : State := s.setInput 0 { s.input 0 with latch := some a }

def fullQueue : List UpEntry := List.replicate 64 (.notice ⟨.nodeLost, 0, 0, 0, 0⟩)

/-- An exchange with node 4 of segment A. -/
def polled (x : Exchange) (s : State) : State := s.setSegment 0 { s.segment 0 with exchange := some x }

def regular : Exchange := { node := 4, rollCall := false, answered := false, frames := 0, helloSeen := false }


/-! ### The trunk -/

theorem test_meets_FramesNotTakenChangeNothing :
    State.reset.tx = .hunting ∧ recordSize (0x05 : Byte).toNat = some 8 ∧ [(0 : Byte)].length ≠ 8 ∧
    fromTrunk (.poll hdr) = true ∧ { State.reset with tx := .entry 1 hdr (State.reset.entryFrame (.echo (pt 0) 0 0 0)) }.tx ≠ .hunting ∧
    (after (exec .badTrunkFrame { live with trunkCrc := 65535 })).trunkCrc = 65535 := by decide +kernel

theorem test_meets_EveryStationFrameIsAnswered :
    replyHdr (.stationSet hdr 0 0) = some hdr ∧ replyHdr (.loopback hdr []) = none ∧ live.tx = .hunting ∧
    { live with protocolError := true }.attention = 3 ∧
    ({ live with latched := Latched.none.put .input true }.latched.holds .input = true ∧
      { live with latched := Latched.none.put .input true }.attention = 2) ∧
    ((∀ c ∈ [Condition.queueOverrun, .condensation, .plantShort, .coverFault, .purgeFailed, .loadAbandoned, .input],
        live.latched.holds c = false) ∧ live.attention = 0 ∧ { live with upstream := fullQueue }.attention = 1) := by
  decide +kernel

/-- The REPLY to a SET that is held shows the attention code and the depth (R24). -/
theorem test_reply_frame :
    (after (exec (.stationSet { hdr with node := 9 } 5 0) { live with upstream := fullQueue, protocolError := true })).tx =
      .reply { addr := 1, kind := 0x51, seg := 0, service := true, more := false, node := 9, chan := 10, seq := 9
               payload := [5, 2, 3, 64] } := by decide +kernel

theorem test_meets_TakenFrameRestartsTrunkSilence :
    (replyHdr (.identify hdr)).isSome = true ∧ live.tx = .hunting ∧ live.runState ≠ .bypass ∧
    (after (exec (.identify hdr) { live with runState := .autonomous, silence := Timer.idle })).runState = .running ∧
    (after (exec (.identify hdr) { live with runState := .autonomous, silence := Timer.idle })).silence = fullMinute ∧
    (after (exec (.halt hdr) live)).runState = .bypass ∧ ready.runState = .bypass ∧
    (after (exec (.poll hdr) ready)).silence = ready.silence ∧ (after (exec (.go hdr 0) ready)).silence = fullMinute := by
  decide +kernel

theorem test_meets_PollSendsOldestEntry :
    fullQueue = .notice ⟨.nodeLost, 0, 0, 0, 0⟩ :: fullQueue.tail ∧
    (after (exec (.poll hdr) { live with upstream := fullQueue })).upstream.length = 63 ∧
    (after (exec .trunkFrameSent { live with upstream := fullQueue, tx := .entry 7 hdr (live.entryFrame (.echo (pt 0) 0 0 0)) })).upstream.length = 63 ∧
    (after (exec .trunkFrameSent { live with upstream := fullQueue, tx := .entry 8 hdr (live.entryFrame (.echo (pt 0) 0 0 0)) })).upstream.length = 64 ∧
    live.upstream = [] := by decide +kernel

theorem test_meets_PollDrainsUpToEight :
    State.reset.tx = .hunting ∧ 7 < fullQueue.length ∧
    (after (execAll (.poll hdr :: List.replicate 8 .trunkFrameSent) { live with upstream := fullQueue })).tx =
      .reply { addr := 1, kind := 0x51, seg := 0, service := true, more := true, node := 4, chan := 10, seq := 9
               payload := [0, 0, 1, 56] } := by decide +kernel

theorem test_meets_UpstreamOffers :
    let e := UpEntry.sample (pt 0) 1 2 0 .good
    let q := .notice ⟨.nodeLost, 0, 0, 0, 0⟩ :: e :: List.replicate 62 (UpEntry.notice ⟨.nodeLost, 0, 0, 0, 0⟩)
    let s := { live with upstream := q }
    let u := { live with upstream := .sample ⟨3, 1, 1⟩ 1 2 0 .unlisted :: fullQueue.tail }
    64 ≤ q.length ∧ e.sampleId = some (pt 0) ∧ (live.point (pt 0)).map PointDef.isSensor = some true ∧
    (s.offer (.echo (pt 9) 1 2 0)).upstream.length = 64 ∧ ((s.offer (.echo (pt 9) 1 2 0)).status (pt 0)).missed = true ∧
    live.point ⟨3, 1, 1⟩ = none ∧ (u.offer (.echo (pt 9) 1 2 0)).table = u.table ∧
    ((∀ y ∈ fullQueue, y.sampleId = none) ∧ ({ live with upstream := fullQueue }.offer e).overrun = 1) ∧
    (s.offerSample (pt 0) 5 6 0 .good).2 = true ∧ (s.offerSample (pt 1) 5 6 0 .good).2 = false ∧
    (live.offerSample (pt 1) 5 6 0 .good).2 = true := by decide +kernel

/-! ### Management -/

theorem test_meets_IdentifyAndLoopback : State.reset.tx = .hunting ∧ 1 ≤ (List.replicate 36 (7 : Byte)).length ∧
    (after (exec (.identify hdr) live)).tx = .reply
      { addr := 1, kind := 0x51, seg := 0, service := false, more := false, node := 4, chan := 10, seq := 9
        payload := [0, 0, 0, 0, 0x49, 0x02, 0x64, 0x01, 0x01] } ∧
    37 ≤ (List.replicate 37 (7 : Byte)).length := by decide +kernel

theorem test_meets_ReadStatus : live.taken.statusBytes.length = 63 ∧ (0 : Byte).toNat = 0 ∧ (1 : Byte).toNat = 1 ∧
    2 ≤ (2 : Byte).toNat ∧ (after (exec (.readStatus hdr 1) { live with protocolError := true })).protocolError = false ∧
    (after (exec (.readStatus hdr 2) { live with protocolError := true })).protocolError = true := by decide +kernel

/-- Segment A has one PRESENT node; the line of input 7 is HIGH; the latch of input 0 is set. -/
theorem test_status_bytes :
    let s := (withLatch .noticeOnly live).setInput 7 { level := .high, settling := false, debounced := .high, latch := none }
    s.statusBytes.drop 15 = [0, 0, 0, 0, 0, 1, 0, 0] ++ List.replicate 24 0 ++ [1, 1] ++
      (List.replicate 6 [(1 : Byte), 0]).flatten ++ [0, 0] := by decide +kernel

theorem test_meets_ReadsReportRecords : ready.runState = .bypass ∧ live.runState ≠ .bypass ∧
    live.points[(0 : Byte).toNat]? = some (sensor 0 .airTemp 6000) ∧ live.points.length ≤ (12 : Byte).toNat ∧
    (7 : Byte).toNat = (7 : Fin 8).val ∧ (5 : Byte).toNat = (5 : Fin 6).val ∧ (63 : Byte).toNat = (63 : Fin 64).val ∧
    8 ≤ (8 : Byte).toNat ∧ 6 ≤ (6 : Byte).toNat ∧ 2 ≤ (2 : Byte).toNat ∧ 64 ≤ (64 : Byte).toNat ∧
    (live.pointBytes (sensor 0 .airTemp 6000)).length = 59 ∧ (live.zoneRead 0).length = 78 ∧
    live.coverRec 1 = none ∧ (live.coverRec 0).isSome = true ∧ (0 : Byte).toNat ≤ ([(1 : Byte)].length - 1) / 32 ∧
    ([(1 : Byte)].length - 1) / 32 < (1 : Byte).toNat := by decide +kernel

theorem test_meets_AcknowledgeNodeOrCondition : (36 : Byte).toNat = (1 : Fin 4).val * 32 + (4 : Fin 31).val ∧
    30 < (31 : Byte).toNat % 32 ∧ 3 < (128 : Byte).toNat / 32 ∧ (2 : Byte).toNat = 2 ∧ 8 ≤ (8 : Byte).toNat ∧
    (after (exec (.acknowledgeCondition hdr 7 3) { live with latched := Latched.none.put .loadAbandoned true })).latched =
      Latched.none := by decide +kernel

def levelRecords : List Stored := recordsWith (input0 .plantTrip .edgeAndLevel)

theorem test_meets_AcknowledgeInput :
    let s := withLatch .coverStop { live with latched := Latched.none.put .input true }
    let high := withLatch .plantTrip ((runningWith levelRecords).setInput 0
      { level := .high, settling := false, debounced := .high, latch := none })
    8 ≤ (8 : Byte).toNat ∧ (live.input 7).latch = none ∧ high.levelHeld 0 = true ∧ (high.input 0).latch = some .plantTrip ∧
    (s.input 0).latch = some .coverStop ∧ s.levelHeld 0 = false ∧
    (after (exec (.acknowledgeInput hdr 0) s)).latched.input = false ∧
    hasNotice (after (exec (.acknowledgeInput hdr 0) s)) .inputReleased 0 2 0 0 ∧
    ((after (exec (.acknowledgeInput hdr 0) high)).input 0).latch = some .plantTrip := by
  simp only [hasNotice]; decide +kernel

theorem test_meets_PaletteRequests : (63 : Byte).toNat = (63 : Fin 64).val ∧ 64 ≤ (64 : Byte).toNat ∧
    ([] : List Int).length < 1 ∧ 19 < (List.replicate 20 (0 : Int)).length ∧
    Palette.dark.lampClass = .ambient ∧ (Palette.dark.write [1]).lampClass = .underwater ∧
    (Palette.dark.write [1, 2]).lampClass = .accent ∧ (Palette.dark.write [1, 2]).held = [1, 2] ∧
    (Palette.dark.write [1, 2]).entry ≠ 0 ∧ ((Palette.dark.point 0).write [1, 2]).entry = 0 ∧
    ((Palette.dark.point 63).write [1, 2, 3]).entry = 0 := by decide +kernel

/-- Table 9-2: seven values across entry 63, and the commit to entry 0 discarded after two more. -/
theorem test_palette_example :
    let p := (Palette.dark.point 62).write [100, 200, 300, 400, 500, 600, 1200]
    p.entries[(62 : Fin 64)] = ⟨100, 200, 300⟩ ∧ p.entries[(63 : Fin 64)] = ⟨400, 500, 600⟩ ∧ p.entry = 0 ∧
    p.lampClass = .underwater ∧ p.held = [1000] ∧ (p.write [1, 2]).entry = 1 ∧
    (p.write [1, 2]).entries[(0 : Fin 64)] = ⟨0, 0, 0⟩ := by decide +kernel

def looped : State := live.setLoop 1 { (live.loop 1) with length := 3 }

def playing : State := { looped with sourceA := { playing := some (1, 2), hold := dueTimer } }

theorem test_meets_LoopRequests :
    3 < (4 : Byte).toNat ∧ 64 < (64 : Byte).toNat + [step0].length ∧ 64 < (65 : Byte).toNat ∧
    (63 : Byte).toNat + [step0].length ≤ 64 ∧
    (∀ r ∈ [step0], r.scene ≤ 63 ∧ r.fade ≤ 600 ∧ r.prescale ≤ 64 ∧ (r.prescale ≠ 0 → 1 ≤ r.count ∧ r.count ≤ 256)) ∧
    (playing.source .a).playing = some (1, 2) ∧ (∀ k, (live.source .a).playing ≠ some (1, k)) ∧
    (∀ k, (live.source .b).playing ≠ some (1, k)) ∧
    ((after (exec (.loopWrite hdr 1 63 [{ step0 with prescale := 0, count := 9 }]) live)).loop 1).steps[(63 : Fin 64)] =
      { step0 with prescale := 0 } ∧
    (after (exec (.loopWrite hdr 1 63 [step0]) playing)).loops = playing.loops ∧
    ((after (exec (.loopLength hdr 1 64) live)).loop 1).length = 64 := by decide +kernel

def loading : State :=
  { ready with
    banks := #v[{ state := .ready, records := records0 }, { state := .loading, records := [⟨0, .zone zone0⟩] }]
    load := some { bank := 1, declared := 2, expected := 1, accepted := 1 } }

def loaded : State := { loading with load := some { bank := 1, declared := 1, expected := 1, accepted := 1 } }

def loadedWell : State :=
  { ready with
    banks := #v[{ state := .loading, records := records0 }, Bank.blank]
    load := some { bank := 0, declared := 17, expected := 17, accepted := 17 } }

theorem test_meets_LoadBeginAndEnd :
    2 ≤ (2 : Byte).toNat ∧ (1#16).toNat < 2 ∧ 280 < (281#16).toNat ∧ (1 : Byte).toNat = (1 : Fin 2).val ∧
    (live.bank 0).state = .active ∧ ready.load = none ∧ (ready.bank 0).state ≠ .active ∧
    loading.load = some { bank := 1, declared := 2, expected := 1, accepted := 1 } ∧ (loading.bank 1).state ≠ .active ∧
    (1 : Nat) ≠ 2 ∧ failedCheck (loaded.bank 1).records = some (1, -1) ∧ failedCheck records0 = none ∧
    ((after (exec (.loadEnd hdr) loadedWell)).bank 0).state = .ready ∧
    ((after (exec (.loadEnd hdr) loaded)).bank 1).state = .empty ∧
    (after (exec (.loadBegin hdr 0 280#16) loading)).banks = #v[{ state := .loading, records := [] }, Bank.blank] := by
  decide +kernel

def hallBody : List Byte := [1, 99, 1, 60, 60, 4, 0, 50]

theorem test_meets_LoadRecord :
    (recordSize (5 : Byte).toNat = some hallBody.length) ∧ ready.load = none ∧
    (2#16).toNat ≠ 1 ∧ (1#16).toNat = 1 ∧ recordSize (6 : Byte).toNat = none ∧
    (decodeRecord 5 [0, 99, 1, 60, 60, 4, 0, 50]).toOption = none ∧
    (decodeRecord 5 hallBody).toOption =
      some (.hall { hold := ⟨1, 100⟩, supplyOff := ⟨1, 61⟩, watch := ⟨60, 5⟩, darkFade := 50 }) ∧
    loaded.load.map (·.accepted) = loaded.load.map (·.declared) ∧
    ((after (exec (.loadRecord hdr 1 5 hallBody) loading)).bank 1).records.length = 2 ∧
    ((after (exec (.loadRecord hdr 1 5 hallBody) loaded)).bank 1).records.length = 1 ∧
    (after (exec (.loadRecord hdr 2 5 hallBody) loading)).load = none := by decide +kernel

/-- The offset a record's body is refused with. -/
def refusedAt (kind : Nat) (body : List Byte) : Option Nat :=
  match decodeRecord kind body with
  | .error o => some o
  | .ok _ => none

/-- An AIR_TEMP sensor of zone 0 on node 4 of segment A, with a role, a kind, a zone, an owner and a policy. -/
def pointBody (role kind zone owner policy : Byte) : List Byte :=
  [0, 4, 1, role, kind, zone, owner, 0, 0, 0, 0, 0, 0, 0, 100, policy, 0, 2, 0, 30, 0, 5, 1, 0, 100, 3]

/-- Two 12-bit values as R193 packs them. -/
def encode12 (x y : Nat) : List Byte := [byteOf (x / 16), byteOf (x % 16 * 16 + y / 256), byteOf (y % 256)]

def zoneBody (flags period : Byte) : List Byte :=
  [flags, period, 50, 0, 100, 0, 100, 0, 100, 0, 100, 3, 232, 0, 100, 0, 100, 0, 100, 0, 100, 0, 100] ++
    (encode12 2000 3000 ++ encode12 200 500 ++ encode12 400 200 ++ encode12 500 300)

def coverBody (flags zone : Byte) : List Byte :=
  [flags, zone, 0, 4, 5, 0, 4, 3, 0, 4, 6, 0, 60, 60, 9, 1, 29, 1, 59, 1, 44, 1, 44, 2, 88]

/-- Fields at and past the ends of their ranges, and fields that disagree (R1 to R3, R193). -/
theorem test_meets_SingleRecordChecks :
    refusedAt 0 (pointBody 0 0 0 0xFF 0) = none ∧ refusedAt 0 (pointBody 1 6 0 3 3) = none ∧
    refusedAt 0 (pointBody 0 9 9 9 9) = some 4 ∧ refusedAt 0 (pointBody 0 0 8 0xFF 0) = some 5 ∧
    refusedAt 0 (pointBody 0 4 0 0xFF 0) = some 5 ∧ refusedAt 0 (pointBody 1 0 0 3 3) = some 6 ∧
    refusedAt 0 (pointBody 1 0 0 1 0) = some 15 ∧ refusedAt 0 (pointBody 0 0 0xFF 0 4) = some 15 ∧
    refusedAt 1 (zoneBody 0x80 2) = none ∧ refusedAt 1 (zoneBody 0x80 61) = some 1 ∧ refusedAt 1 (zoneBody 0 61) = none ∧
    refusedAt 2 (coverBody 0x85 7) = none ∧ refusedAt 2 (coverBody 0x86 0) = some 0 ∧ refusedAt 2 (coverBody 0x85 8) = some 1 ∧
    refusedAt 3 [0x87, 1, 1, 5] = none ∧ refusedAt 3 [0x87, 1, 1, 6] = some 3 ∧
    refusedAt 4 [0, 1, 2, 3, 15, 0x0F, 0xA0] = none ∧ refusedAt 4 [0, 1, 2, 3, 15, 0x0F, 0xA1] = some 5 ∧
    refusedAt 5 hallBody = none ∧ refusedAt 5 [1, 99, 65, 60, 60, 4, 0, 50] = some 2 := by decide +kernel

/-- A list of records for each check of Table 1-4, and the record each names. -/
theorem test_meets_CrossRecordChecks :
    let more (r : Record) := records0 ++ [(⟨17, r⟩ : Stored)]
    let without (n : Nat) := records0.filter fun x => x.number ≠ n
    let quick : HallRec := { hold := ⟨1, 100⟩, supplyOff := ⟨1, 60⟩, watch := ⟨60, 5⟩, darkFade := 50 }
    let air (c : Nat) : Stored := ⟨20 + c, .point { sensor 1 .airRh 1000 with id := ⟨1, 4, c⟩ }⟩
    failedCheck (more (.hall quick)) = some (1, 17) ∧ failedCheck (without 0) = some (1, -1) ∧
    failedCheck (more (.plant { order := [0, 1, 2, 3], pairBits := 0, capacity := 0 })) = some (2, 17) ∧
    failedCheck (without 1) = some (2, -1) ∧ failedCheck (more (.point heat)) = some (3, 17) ∧
    failedCheck (more (.point (actuator 12 .lamp .lighting 1000))) = some (4, 17) ∧
    failedCheck (more (.zone { zone0 with inUse := false })) = some (5, 17) ∧
    failedCheck (records0 ++ [air 0, air 1, air 2]) = none ∧
    failedCheck (records0 ++ [air 0, air 1, air 2, air 3]) = some (6, 23) ∧
    failedCheck (without 11) = some (7, 3) ∧
    failedCheck (without 1 ++ [⟨1, .plant { order := [0, 1, 2, 2], pairBits := 0, capacity := 0 }⟩]) = some (8, 1) ∧
    failedCheck (without 0 ++ [⟨0, .hall quick⟩]) = some (9, 0) ∧
    failedCheck (without 2 ++ [⟨2, .zone { zone0 with hpOff := 400 }⟩]) = some (10, 2) := by decide +kernel
/-! ### Run states -/

def moving : State := withCover { Cover.blank with state := .closing, travel := dueTimer } live

theorem test_meets_GoStartsTheJobs :
    2 ≤ (2 : Byte).toNat ∧ (1 : Byte).toNat = (1 : Fin 2).val ∧ live.runState ≠ .bypass ∧ ready.runState = .bypass ∧
    (ready.bank 1).state ≠ .ready ∧ (ready.bank 0).state = .ready ∧ ready.mode = none ∧ ready.upstream.length < 64 ∧
    (after (exec (.go hdr 0) ready)).coverRec 0 = some cover0 ∧
    hasNotice (after (exec (.go hdr 0) ready)) .modeChanged 6 1 (-1) 0 ∧
    (after (exec (.go hdr 0) ready)).capacity = some 1000 := by
  simp only [hasNotice]; decide +kernel

theorem test_meets_HaltEndsTheJobs :
    ready.runState = .bypass ∧ live.runState ≠ .bypass ∧ (moving.cover 0).moving = true ∧
    (∀ c, (live.cover c).moving = false) ∧ (∀ c, (live.cover c).purging = false) ∧
    (after (exec (.halt hdr) live)).banks = #v[{ state := .ready, records := records0 }, { state := .ready, records := records0 }] ∧
    (after (exec (.halt hdr) moving)).runState = .running := by decide +kernel

theorem test_meets_Clear :
    ready.runState = .bypass ∧ live.runState ≠ .bypass ∧ live.coverRec 0 = some cover0 ∧
    (live.segment 0).nodes[(4 : Fin 31)].state = .present ∧ (live.segment 0).nodes[(5 : Fin 31)].state ≠ .present ∧
    ((after (exec (.clear hdr) live)).cover 0).state = .opened ∧
    ((after (exec (.clear hdr) (withStatus 3 (fun _ => PointStatus.unknown) live))).cover 0).derivePending = true ∧
    (after (exec (.clear hdr) { live with upstream := fullQueue })).upstream.length = 0 := by decide +kernel

/-- The second bank with other records. -/
def switching (rs : List Stored) (s : State) : State := { s with banks := s.banks.set 1 { state := .ready, records := rs } }

def fewer : List Stored := [⟨0, .hall { hold := ⟨1, 100⟩, supplyOff := ⟨1, 61⟩, watch := ⟨60, 5⟩, darkFade := 50 }⟩,
  ⟨1, .plant { order := [3, 2, 1, 0], pairBits := 15, capacity := 4000 }⟩, ⟨2, .input (input0 .plantTrip .edgeAndLevel)⟩,
  ⟨3, .point { sensor 0 .airTemp 6000 with stale := 1 }⟩]

theorem test_meets_BankSwitch :
    2 ≤ (2 : Byte).toNat ∧ (1 : Byte).toNat = (1 : Fin 2).val ∧ ready.active = none ∧ live.active = some 0 ∧
    (live.bank 0).state ≠ .ready ∧ (live.bank 1).state = .ready ∧ (moving.cover 0).moving = true ∧
    (∀ c, (live.cover c).moving = false) ∧ (1 : Fin 2) ≠ 0 ∧ live.upstream.length < 64 ∧
    pointIn fewer (pt 0) = some { sensor 0 .airTemp 6000 with stale := 1 } ∧
    matchedPoint records0 { sensor 0 .airTemp 6000 with stale := 1 } = true ∧
    matchedPoint records0 (sensor 0 .airRh 6000) = false ∧
    keptInput records0 records0 0 = true ∧ keptInput records0 fewer 0 = false ∧
    ((after (exec (.bankSwitch hdr 1) (withStatus 0 (fun st => { st with age := 2 }) (switching fewer live)))).status
      (pt 0)).quality = .stale ∧
    (after (exec (.bankSwitch hdr 1) (switching fewer live))).priority = [7, 6, 5, 4, 3, 2, 1, 0] := by decide +kernel

def supplyAt (x : SupplyState) (off : Timer) (s : State) : State :=
  { s with supplies := s.supplies.set 0 (some { state := x, awaiting := [], offDelay := off }) }

/-- A bank with zone 1 and cover 1 in place of zone 0 and cover 0, and a second supply point of zone 0. -/
def moved : List Stored :=
  fewer ++ [⟨4, .zone { zone0 with index := 1 }⟩, ⟨5, .cover { cover0 with index := 1, zone := 1, drive := pt 15 }⟩] ++
  [⟨6, .point (actuator 8 .lampSupply .lighting 1)⟩, ⟨7, .point { actuator 13 .lampSupply .lighting 1 with id := pt 13 }⟩,
   ⟨8, .point (actuator 6 .purgeFan .cover 1)⟩]

def slower : List Stored :=
  (records0.filter fun r => r.number ≠ 2) ++ [⟨2, .zone { zone0 with period := 20 }⟩]

/-- The zones, covers and supplies of a switch in each of their cases (R13, R14, R165). -/
theorem test_meets_SwitchStages :
    let s := (live.setZone 0 { live.zone 0 with risk := true }).setCover 0 { Cover.blank with purge := .running }
    let switched (rs : List Stored) := (switching rs s).taken.takeSwitch 1 0
    zoneIn records0 0 = some zone0 ∧ (zoneIn slower 0).map (·.period) = some 20 ∧ zoneIn moved 0 = none ∧
    zoneIn records0 1 = none ∧ (zoneIn moved 1).isSome = true ∧ (s.zone 0).evalTimer.running = true ∧ s.upstream.length < 56 ∧
    coverIn records0 0 = some cover0 ∧ coverIn moved 0 = none ∧ coverIn records0 1 = none ∧ (coverIn moved 1).isSome = true ∧
    ((switched slower).zone 0).evalTimer.remaining = 20 ∧ ((switched slower).cover 0).purge = .running ∧
    ((switched moved).zone 0).evalTimer.running = false ∧ hasNotice (switched moved) .condensationClear 0 0 0 1 ∧
    ((switched moved).zone 1).evalTimer.remaining = 10 ∧ ((switched moved).zone 1).unstarved = 1 ∧ (switched moved).cover 0 = Cover.blank ∧
    ((switched moved).cover 1).state = .halted ∧ (switched moved).lamps = [] ∧ (switched moved).supplyState 0 = some .off := by
  simp only [hasNotice]; decide +kernel

/-- What one cover's and one zone's stage of a switch submits. -/
theorem test_meets_SwitchSets :
    let s := (live.setCover 0 { Cover.blank with purge := .running })
    let new (c : CoverRec) : State := switching [] { s with banks := #v[{ state := .active, records :=
      (records0.filter fun r => r.number ≠ 3) ++ [⟨3, .cover c⟩, ⟨17, .point (actuator 12 .purgeFan .cover 1)⟩] }, Bank.blank] }
    let queued (t : State) := (t.segment 0).queue.map fun e => (e.point.chan, e.value)
    (new cover0).point (pt 6) = some (actuator 6 .purgeFan .cover 1) ∧ (statusIn s.table (pt 6)).isSome = true ∧
    (s.cover 0).purging = true ∧ cover0.fan ≠ { cover0 with fan := pt 12 }.fan ∧
    queued (State.switchCover records0 0 (new { cover0 with drive := pt 15 })) = [(6, 0)] ∧
    queued (State.switchCover records0 0 (new { cover0 with fan := pt 12 })) = [(6, 0), (12, 1)] ∧
    queued (State.rebuildSupply [] 0 (withLatch .evacuate live)) = [(8, 1)] ∧
    (State.rebuildSupply [] 0 (supplyAt .on Timer.idle live)).supplyState 0 = some .off ∧
    State.rebuildSupply records0 0 live = live := by decide +kernel

theorem test_meets_TrunkSilence :
    live.timerDue .trunkSilence = false ∧ { live with silence := dueTimer }.timerDue .trunkSilence = true ∧
    { ready with silence := dueTimer }.runState ≠ .running ∧ live.upstream.length < 64 ∧ live.load = none ∧
    (after (exec .trunkSilenceExpiry { loading with runState := .running, silence := dueTimer, active := some 0 })).load =
      none ∧
    hasNotice (after (exec .trunkSilenceExpiry { loading with runState := .running, silence := dueTimer, active := some 0 }))
      .loadAbandoned 1 Reason.autonomous.code (-1) 0 := by
  simp only [hasNotice]; decide +kernel

/-! ### SETs -/

def eight : List SendEntry := (List.range 8).map fun i => ⟨⟨0, 9, i⟩, 0, 0, .station, 0⟩

def queueing (q : List SendEntry) (s : State) : State := s.setSegment 0 { s.segment 0 with queue := q }

def overridden : State := live.setZone 0 { live.zone 0 with override := true }

def away (s : State) : State := s.setSegment 0
  { s.segment 0 with nodes := (s.segment 0).nodes.set 4 { state := .lost, misses := 3, joined := false } }

theorem test_meets_Sets :
    (3 < (6 : BitVec 4).toNat ∧ (6 : BitVec 4).toNat ≠ 7) ∧ 30 < (31 : Byte).toNat ∧ 15 < (16 : Byte).toNat ∧
    hdr.seg.toNat ≤ 3 ∧ (3 : BitVec 4).toNat ≤ 3 ∧ (30 : Byte).toNat ≤ 30 ∧ (15 : Byte).toNat ≤ 15 ∧
    live.taken.forwardable (pt 9) = false ∧ live.taken.forwardable (pt 10) = true ∧ live.nodePresent (pt 10) = true ∧
    (away live).taken.forwardable (pt 10) = true ∧ (away live).nodePresent (pt 10) = false ∧
    (queueing eight live).queueFull (pt 10) = true ∧ live.queueFull (pt 10) = false ∧ live.point ⟨0, 4, 15⟩ = none ∧
    live.point (pt 0) = some (sensor 0 .airTemp 6000) ∧ live.point (pt 10) = some (actuator 10 .generic .station 500) ∧
    live.point (pt 9) = some heat ∧ overridden.overrideInForce heat = true ∧ live.overrideInForce heat = false ∧
    jobQueued [⟨pt 9, 0, 0, .climate, 0⟩] (pt 9) = true := by decide +kernel

theorem test_set_clamped :
    let t := after (exec (.stationSet hdr 501 601) live)
    (t.segment 0).queue = [⟨pt 10, 500, 600, .station, 9⟩] ∧ t.clamps = 1 ∧
    t.tx = .reply { addr := 1, kind := 0x51, seg := 0, service := false, more := false, node := 4, chan := 10, seq := 9
                    payload := [4, 0, 0, 0, 0, 0, 1, 244] } := by decide +kernel

theorem test_meets_VirtualSets :
    ready.runState = .bypass ∧ live.runState ≠ .bypass ∧ (7 : BitVec 4) = 7 ∧
    (6 < (7 : Byte).toNat ∧ 5 < (6 : Byte).toNat ∧ 7 < (8 : Byte).toNat ∧ 3 < (4 : Byte).toNat) ∧
    ((-1 : Int) < 0 ∧ (3 : Int) < 4 ∧ (4 : Int) ≠ 255 ∧ (63 : Int) < 64 ∧ (100 : Int) < 101 ∧ (108 : Int) < 109 ∧ (1 : Int) < 2 ∧ (0 : Int) < 1) := by
  decide +kernel

/-! ### Modes and the plant -/

def closedCover : Cover := { Cover.blank with state := .closed, purge := .waiting }

theorem test_meets_ModeRequest :
    let pendingOpen := withCover { Cover.blank with openPending := true } live
    (live.coverRec 0).isSome = true ∧ ((withCover closedCover live).cover 0).state ≠ .opened ∧
    (pendingOpen.cover 0).openPending = true ∧
    (∀ c, ((live.coverRec c).isSome = true → (live.cover c).state = .opened) ∧ (live.cover c).openPending = false) ∧
    live.mode = some .staffed ∧ { live with mode := some .dormant }.mode = some .dormant ∧ live.upstream.length < 64 ∧
    (after (exec (.modeRequest 1 0) live)).mode = some .openHall ∧
    (after (exec (.modeRequest 1 2) { live with mode := some .dormant, dormantPending := true })).dormantPending = false ∧
    live.zoneRec 0 = some zone0 ∧ live.point (pt 7) = some (actuator 7 .lamp .lighting 1000) ∧ (live.lamp (pt 7)).isSome = true ∧
    ((after (exec (.modeRequest 1 2) { live.setZone 0 { live.zone 0 with evalTimer := dueTimer } with mode := some .dormant })).zone 0).evalTimer.remaining = 10 := by
  decide +kernel

def atRisk : State := live.setZone 0 { live.zone 0 with risk := true }

theorem test_meets_DormantRequest :
    let purging := withCover { closedCover with purge := .running } live
    (purging.cover 0).purging = true ∧ (moving.cover 0).moving = true ∧ (∀ c, (moving.cover c).purging = false) ∧
    (atRisk.zoneRec 0).isSome = true ∧ (atRisk.zone 0).risk = true ∧ (∀ c, (atRisk.cover c).moving = false) ∧
    ((withLatch .evacuate live).input 0).latch = some .evacuate ∧ (∀ z, (live.zone z).risk = false) ∧
    (∀ i, (live.input i).latch = none) ∧ (after (exec (.modeRequest 1 3) live)).mode = some .dormant ∧
    (after (exec (.modeRequest 1 3) live)).watch.remaining = 300 ∧
    live.point (pt 7) = some (actuator 7 .lamp .lighting 1000) ∧ (0 : Fin 8) ∈ live.priority ∧
    (lit.lamp (pt 7)).map (·.target) = some 1000 ∧
    (after (exec (.modeRequest 1 3) lit)).lamp (pt 7) = some { Lamp.dark with start := 1000, fade := 50 } ∧
    (after (exec (.modeRequest 1 3) purging)).tx = .reply
      { addr := 1, kind := 0x51, seg := 7, service := false, more := false, node := 0, chan := 0, seq := 1
        payload := [1, 27, 1, 1, 0, 0, 0, 3, 2, 1] } := by decide +kernel

/-- The notices of a deferral and of the entry, and the SET 0 of the entry. -/
theorem test_meets_DormantNotices :
    let purging := withCover { closedCover with purge := .running } live
    let asleep := after (exec (.modeRequest 1 3) live)
    purging.mode ≠ some .night ∧ { purging with mode := some .night }.mode = some .night ∧ live.upstream.length < 64 ∧
    hasNotice (after (exec (.modeRequest 1 3) purging)) .modeChanged 0 2 1 0 ∧
    (after (exec (.modeRequest 1 3) { purging with mode := some .night })).upstream = [] ∧
    hasNotice asleep .modeChanged 0 3 1 0 ∧ (asleep.segment 0).queue = [⟨pt 9, 0, 0, .climate, 0⟩] ∧
    heat ∈ live.points ∧ (heat.role = .actuator .heatValve ∧ heat.owner = some .climate ∧ heat.zone = some 0) ∧
    (live.zoneRec 0).isSome = true ∧ (live.zoneRec 1).isSome = false ∧ (live.points.map (·.id)).Nodup ∧
    live.lamp (pt 9) = none ∧ (statusIn live.table (pt 9)).isSome = true ∧
    (live.climateSleep.segment 0).queue = [⟨pt 9, 0, 0, .climate, 0⟩] ∧
    ((away live).climateSleep.status (pt 9)).resend = true ∧ (live.climateSleep.zone 0).lastValve = some 0 := by
  simp only [hasNotice]; decide +kernel

/-- Table 7-4: the order z2, z3, z1, z0, z4 … shares 1500 units. -/
def sharing : State :=
  { live with
    priority := priorityOf { order := [1, 0, 2, 3], pairBits := 1, capacity := 1500 }, capacity := some 1500
    zones := #v[{ Zone.start with request := 600 }, { Zone.start with request := 500 }, { Zone.start with request := 400 },
      Zone.start, { Zone.start with request := 300 }, { Zone.start with request := 200 }, Zone.start, Zone.start] }

theorem test_meets_Plant : sharing.priority.Nodup ∧ sharing.priority = [2, 3] ++ 1 :: [0, 4, 5, 6, 7] ∧
    ((withLatch .plantTrip live).input 0).latch = some .plantTrip ∧ (∀ i, (sharing.input i).latch ≠ some .plantTrip) ∧
    sharing.capacity = some 1500 ∧ (0 : Fin 8) ∉ ([] : List (Fin 8)) ∧
    allZones.map (fun z => (sharing.allocate.zone z).grant) = [600, 500, 400, 0, 0, 0, 0, 0] ∧
    (after (exec (.plantCapacity 1 4001) sharing)).capacity = some 4000 ∧
    (after (exec (.plantCapacity 1 (-1)) sharing)).grantSum = 0 := by decide +kernel

theorem test_meets_TrimAndOverride :
    let s := queueing [⟨pt 10, 1, 0, .station, 0⟩, ⟨pt 9, 320, 0, .climate, 0⟩] live
    live.runState ≠ .bypass ∧ (overridden.zone 0).override = true ∧ (live.zone 0).override = false ∧
    (∀ i, (live.input i).latch ≠ some .evacuate) ∧
    s.point (pt 9) = some heat ∧ heat.override = true ∧ heat.zone = some 0 ∧
    (statusIn s.table (pt 9)).isSome = true ∧ ((after (exec (.zoneOverride 0 1 1) s)).segment 0).queue =
      [⟨pt 10, 1, 0, .station, 0⟩] ∧
    ((after (exec (.zoneOverride 0 1 1) s)).status (pt 9)).resend = true ∧
    ((after (exec (.zoneOverride 0 1 1) (withLatch .evacuate s))).segment 0).queue = [⟨pt 10, 1, 0, .station, 0⟩] ∧
    (after (exec (.zoneOverride 0 1 0) (overridden.setZone 0 { overridden.zone 0 with lastValve := some 320 }))).segs =
      (queueing [⟨pt 9, 320, 0, .climate, 0⟩] live).segs ∧
    (∀ y, (overridden.supply y).map (·.state) ≠ some .powering) ∧
    ((after (exec (.zoneTrim 7 1 (-201)) s)).zone 7).trim = -200 ∧
    ((after (exec (.zoneTrim 0 1 201) s)).zone 0).trim = 200 := by decide +kernel

/-! ### Lighting -/

/-- Source A plays step 1 of loop 1, whose scene is entry 5; the lamp of the zone is full on. -/
def playingLit : State :=
  { lit with
    palette := { Palette.dark with entries := Palette.dark.entries.set 5 ⟨800, 600, 0⟩ }
    loops := lit.loops.set 1
      { length := 3, steps := ((lit.loop 1).steps.set 1 ⟨5, 50, 1, 30, 0x80⟩).set 2 ⟨0, 0, 0, 1, 1⟩ }
    sourceA := { playing := some (1, 1), hold := dueTimer } }

theorem test_meets_Retarget :
    let lampDef := actuator 7 .lamp .lighting 1000
    ((withLatch .evacuate lit).input 0).latch = some .evacuate ∧ (∀ i, (playingLit.input i).latch ≠ some .evacuate) ∧
    { lit with mode := some .dormant }.governing lampDef = (0, 50) ∧ playingLit.mode ≠ some .dormant ∧
    lampDef.strip < playingLit.split ∧ (playingLit.source .a).playing = some (1, 1) ∧ (lit.source .a).playing = none ∧
    (playingLit.lamps.map (·.id)).Nodup ∧ playingLit.governing lampDef = (800, 50) ∧ playingLit.point (pt 7) = some lampDef ∧
    (playingLit.lamp (pt 7)).map (·.target) = some 1000 ∧ (lit.lamp (pt 7)).map (·.target) ≠ some (lit.governing lampDef).1 := by
  decide +kernel

/-- A closing cover when its zone's only lamp is retargeted to 0: dark for a minimum of 300, and not for one of 0. -/
theorem test_meets_DarkHalt :
    let s := withCover { Cover.blank with state := .closing, travel := dueTimer } lit
    let bright := s.setBank 0
      { s.bank 0 with records := records0.map fun r => if r.number = 3 then ⟨3, .cover { cover0 with workLight := 0 }⟩ else r }
    s.point (pt 7) = some (actuator 7 .lamp .lighting 1000) ∧ (s.lamp (pt 7)).map (·.target) = some 1000 ∧
    (s.governing (actuator 7 .lamp .lighting 1000)).1 = 0 ∧ (s.cover 0).moving = true ∧ s.coverRec 0 = some cover0 ∧
    s.retargetAll.workLevel 0 < 300 ∧ (s.retargetAll.cover 0).haltReason = some .dark ∧ s.upstream.length < 58 ∧
    hasNotice s.retargetAll .coverEvent 0 5 0 0 ∧ (s.points.map (·.id)).Nodup ∧ s.lamp (pt 5) = none ∧
    s.coverRec 5 = none ∧ (∀ j q, s.coverRec j = some q → q = cover0 ∧ j = 0) ∧ (0 : Int) ≤ bright.retargetAll.workLevel 0 ∧
    (bright.retargetAll.cover 0).state = .closing ∧ (lit.retargetAll.cover 0).state = .opened := by
  simp only [hasNotice]
  refine ⟨?_, ?_, ?_, ?_, ?_, ?_, ?_, ?_, ?_, ?_, ?_, ?_, fun j q h => ?_, ?_, ?_, ?_⟩
  all_goals try decide +kernel
  have only : ∀ j, (withCover { Cover.blank with state := .closing, travel := dueTimer } lit).coverRec j =
    if j = 0 then some cover0 else none := by decide +kernel
  rw [only j] at h
  by_cases hj : j = 0
  · rw [if_pos hj] at h; exact ⟨(Option.some.inj h).symm, hj⟩
  · rw [if_neg hj] at h; cases h

theorem test_meets_SplitPosition :
    let s := { playingLit with sourceB := Source.stopped }
    (96 : Int).toNat = s.split ∧ s.point (pt 7) = some (actuator 7 .lamp .lighting 1000) ∧
    (s.lamp (pt 7)).isSome = true ∧
    (after (exec (.splitPosition 1 (-1)) s)).split = 0 ∧ (after (exec (.splitPosition 1 97) s)).split = 96 ∧
    ((after (exec (.splitPosition 1 0) s)).lamp (pt 7)).map (·.target) = some 0 := by decide +kernel

theorem test_meets_CueCommands :
    (live.loop 0).length = 0 ∧ (playingLit.loop 1).length ≠ 0 ∧ (live.source .a).playing = none ∧
    (playingLit.source .a).playing = some (1, 1) ∧ (playingLit.loop 1).length ≤ 64 ∧
    (playingLit.loop 1).steps[Fin.ofNat 64 ((1 + 1 + 0) % 3)].marks.getLsbD (1 - 1) = true ∧
    (playingLit.loop 1).steps[Fin.ofNat 64 ((1 + 1 + 2) % 3)].marks.getLsbD (8 - 1) = true ∧
    (∀ j < 2, (playingLit.loop 1).steps[Fin.ofNat 64 ((1 + 1 + j) % 3)].marks.getLsbD (8 - 1) = false) ∧
    (∀ i < 3, (playingLit.loop 1).steps[Fin.ofNat 64 ((1 + 1 + i) % 3)].marks.getLsbD (2 - 1) = false) ∧
    (after (exec (.cueAdvance .a 1 63) playingLit)).sourceA.playing = some (1, 1) ∧
    (after (exec (.cueAdvance .a 1 101) playingLit)).sourceA.playing = some (1, 2) ∧
    (after (exec (.cueAdvance .a 1 108) playingLit)).sourceA.hold.remaining = 30 ∧
    live.timerDue (.cueHold .a) = false ∧ playingLit.timerDue (.cueHold .a) = true ∧
    { live with sourceB := { playing := none, hold := dueTimer } }.timerDue (.cueHold .b) = true ∧
    (after (exec (.cueHoldExpiry .a) playingLit)).sourceA.hold.running = false := by decide +kernel

/-- The fade of Section 9.6 (Table 9-8): from 800 to 0 in 100 ticks, half way. -/
theorem test_meets_Fades :
    let l : Lamp := { start := 800, target := 0, fade := 100, elapsed := 50, deferred := false }
    l.expected = 400 ∧ (l.fade ≠ 0 ∧ { l with elapsed := 100 }.expected = 0 ∧ { l with elapsed := 0 }.expected = 800 ∧
      { l with fade := 0 }.expected = 0) ∧
    (lit.lamp (pt 7)).isSome = true ∧ (∀ p ∈ lit.zoneLamps 1, p.1.lampClass ≠ .ambient) ∧
    (∃ p ∈ lit.zoneLamps 0, p.1.lampClass = .ambient) ∧ (lit.supply 0).map (·.state) = some .on ∧
    (live.supply 0).map (·.state) = some .off ∧ lit.workLevel 0 = 1000 ∧ live.workLevel 0 = 0 ∧ lit.lampLoad 0 = 100 ∧
    ((after (exec .fadeTick { lit with lamps := [⟨pt 7, l⟩] })).lamp (pt 7)).map (·.elapsed) = some 51 := by decide +kernel

theorem test_meets_Supplies :
    live.timerDue (.supplyOffDelay 0) = false ∧ (supplyAt .stopping dueTimer live).timerDue (.supplyOffDelay 0) = true ∧
    (supplyAt .on dueTimer live).timerDue (.supplyOffDelay 0) = true ∧ live.supplyPoints 0 = [pt 8] ∧
    live.point (pt 8) = some (actuator 8 .lampSupply .lighting 1) ∧ live.lamp (pt 8) = none ∧
    (statusIn live.table (pt 8)).isSome = true ∧ lit.demand 0 = true ∧ live.demand 0 = false ∧
    ((after (exec (.supplyOffDelayExpiry 0) (supplyAt .stopping dueTimer live))).segment 0).queue =
      [⟨pt 8, 0, 0, .lighting, 0⟩] ∧
    ((supplyAt .off Timer.idle lit).examineSupply 0).supplyState 0 = some .powering ∧
    ((supplyAt .on Timer.idle live).examineSupply 0).timerDue (.supplyOffDelay 0) = false ∧
    ((supplyAt .on Timer.idle live).examineSupply 0).supply 0 =
      some { state := .stopping, awaiting := [], offDelay := Timer.idle.start ⟨1, 61⟩ } ∧
    ((withLatch .evacuate (supplyAt .on Timer.idle live)).input 0).latch = some .evacuate := by decide +kernel

def deferredLamp : Lamp := { start := 0, target := 700, fade := 50, elapsed := 3, deferred := true }

/-- A supply that waits for the echoes of `ids`, and a lamp that waits for the supply. -/
def powering (ids : List PointId) (s : State) : State :=
  { s with
    lamps := [⟨pt 7, deferredLamp⟩]
    supplies := s.supplies.set 0 (some { state := .powering, awaiting := ids, offDelay := Timer.idle }) }

theorem test_meets_SupplyRelease :
    let dark (s : State) := { supplyAt .off Timer.idle s with lamps := [⟨pt 7, deferredLamp⟩] }
    let s := powering [pt 8] live
    (dark live).demand 0 = true ∧ ((dark live).examineSupply 0).supply 0 = some ⟨.powering, [pt 8], Timer.idle⟩ ∧
    ((dark (away live)).examineSupply 0).supply 0 = some ⟨.on, [], Timer.idle⟩ ∧
    ((dark (away live)).examineSupply 0).lamp (pt 7) = some { deferredLamp with deferred := false, elapsed := 0 } ∧
    s.leaveAwaiting 0 (pt 9) = s ∧
    ((powering [pt 8, pt 9] live).leaveAwaiting 0 (pt 9)).supply 0 = some ⟨.powering, [pt 8], Timer.idle⟩ ∧
    s.point (pt 7) = some (actuator 7 .lamp .lighting 1000) ∧ (statusIn s.table (pt 7)).isSome = true ∧ s.demand 0 = true ∧
    (s.leaveAwaiting 0 (pt 8)).supply 0 = some ⟨.on, [], Timer.idle⟩ ∧
    ((s.leaveAwaiting 0 (pt 8)).segment 0).queue = [⟨pt 7, 700, 50, .lighting, 0⟩] ∧
    { s with lamps := [] }.demand 0 = false ∧ (∀ i, (s.input i).latch ≠ some .evacuate) ∧
    ({ s with lamps := [] }.releaseSupply 0).supply 0 = some ⟨.stopping, [], Timer.idle.start ⟨1, 61⟩⟩ := by decide +kernel

/-! ### Covers -/

def blind : State := withStatus 3 (fun st => { st with quality := .stale }) lit

def occupiedZone (s : State) : State := s.setZone 0 { s.zone 0 with occupied := true }

theorem test_meets_CoverInterlocks :
    { lit with mode := some .openHall }.interlock cover0 true = some .mode ∧
    (occupiedZone lit).interlock cover0 true = some .occupied ∧ (occupiedZone lit).interlock cover0 false = none ∧
    blind.interlock cover0 true = some .sensor ∧ live.interlock cover0 true = some .dark ∧
    (withLatch .coverStop lit).interlock cover0 true = some .stopped ∧ lit.interlock cover0 true = none ∧
    { lit with mode := some .night }.interlock cover0 true = none ∧ live.coverRec 5 = none ∧
    (after (exec (.coverStop 5 1) live)).freeCount = 1 := by decide +kernel

theorem test_meets_Close :
    lit.coverRec 0 = some cover0 ∧ (moving.cover 0).state = .closing ∧
    ((withCover { Cover.blank with state := .fault } lit).cover 0).state = .fault ∧
    (closedCover.state = .closed ∧ closedCover.openPending = false ∧ { closedCover with openPending := true }.openPending = true) ∧
    (lit.cover 0).state = .opened ∧ live.interlock cover0 true = some .dark ∧ lit.interlock cover0 true = none ∧
    lit.point (pt 5) = some (actuator 5 .coverDrive .cover 2) ∧ cover0.fan ≠ cover0.drive ∧
    (statusIn lit.table (pt 5)).isSome = true ∧
    ((after (exec (.coverClose 0 1) lit)).segment 0).queue = [⟨pt 5, 1, 0, .cover, 0⟩] ∧
    ((after (exec (.coverClose 0 1) lit)).cover 0).travel.remaining = 60 := by decide +kernel

theorem test_meets_Open :
    let s := withCover closedCover lit
    (moving.cover 0).state = .closing ∧ (lit.cover 0).state = .opened ∧ (s.cover 0).state = .closed ∧
    (withCover closedCover live).interlock cover0 false = some .dark ∧ s.interlock cover0 false = none ∧
    ((withCover { closedCover with valid := true } lit).cover 0).valid = true ∧
    (s.cover 0).valid = false ∧ (s.cover 0).purge = .waiting ∧
    ((withCover { closedCover with purge := .running } lit).cover 0).purge ≠ .waiting ∧
    ((withCover { Cover.blank with state := .halted } lit).cover 0).purge = .idle ∧
    lit.point (pt 6) = some (actuator 6 .purgeFan .cover 1) ∧ (statusIn lit.table (pt 6)).isSome = true ∧
    ((after (exec (.coverOpen 0 1) s)).segment 0).queue = [⟨pt 6, 1, 0, .cover, 0⟩] ∧
    ((after (exec (.coverOpen 0 1) s)).zone 0).oaFloor = 300 ∧
    ((after (exec (.coverOpen 0 1) (withCover { closedCover with valid := true } lit))).cover 0).state = .opening := by
  decide +kernel

theorem test_meets_StopAndReset :
    (live.cover 0).moving = false ∧ (moving.cover 0).moving = true ∧ moving.upstream.length < 64 ∧
    ((withCover { Cover.blank with state := .fault } live).cover 0).state = .fault ∧ (live.cover 0).state ≠ .fault ∧
    ((after (exec (.coverStop 0 1) moving)).cover 0).haltReason = some .command ∧
    hasNotice (after (exec (.coverStop 0 1) moving)) .coverEvent 0 2 0 0 := by
  simp only [hasNotice]; decide +kernel

def running1 : Cover :=
  { closedCover with purge := .running, duration := dueTimer, confirmed := true }

/-- The purge fan of a run that HALT ends: SET 0 placed, or the fan marked for resend when its zone's override withholds it. -/
theorem test_meets_HaltStopsFans :
    let s := withCover running1 live
    let barred := (s.setZone 0 { s.zone 0 with override := true }).setBank 0
      { s.bank 0 with records := records0.map fun r =>
          if r.number = 11 then ⟨11, .point { actuator 6 .purgeFan .cover 1 with override := true }⟩ else r }
    s.coverRec 0 = some cover0 ∧ (s.cover 0).purge = .running ∧ (∀ c, (s.cover c).moving = false) ∧
    s.point cover0.fan = some (actuator 6 .purgeFan .cover 1) ∧ (statusIn s.table cover0.fan).isSome = true ∧
    ((after (exec (.halt hdr) s)).segment 0).queue = [⟨pt 6, 0, 0, .cover, 0⟩] ∧
    ((after (exec (.halt hdr) barred)).segment 0).queue = [] ∧ ((barred.haltFan 0).status (pt 6)).resend = true := by
  decide +kernel

/-- The ends of held actions: the last EVACUATE cleared darkens the lamps of a stopped source, one of two ends nothing, and the
last PLANT_TRIP cleared shares the plant again. -/
theorem test_meets_HeldActionsEnd :
    let ack (s : State) := after (exec (.acknowledgeInput hdr 0) s)
    let evacuated := withLatch .evacuate lit
    let both := evacuated.setInput 3 { evacuated.input 3 with latch := some .evacuate }
    let tripped := withLatch .plantTrip sharing
    (evacuated.input 0).latch = some .evacuate ∧ evacuated.levelHeld 0 = false ∧ evacuated.upstream.length < 58 ∧
    (∀ j, j ≠ 0 → (evacuated.input j).latch ≠ some .evacuate) ∧ (both.input 3).latch = some .evacuate ∧
    evacuated.point (pt 7) = some (actuator 7 .lamp .lighting 1000) ∧
    ((ack evacuated).lamp (pt 7)).map (·.target) = some 0 ∧ ((ack both).lamp (pt 7)).map (·.target) = some 1000 ∧
    hasNotice (ack evacuated) .inputReleased 0 1 0 0 ∧ sharing.capacity = some 1500 ∧ tripped.levelHeld 0 = false ∧
    tripped.effectiveCapacity = 0 ∧ (ack tripped).grantSum = 1500 := by
  simp only [hasNotice]; decide +kernel

theorem test_meets_TravelAndPurgeStart :
    live.timerDue (.travel 0) = false ∧ moving.timerDue (.travel 0) = true ∧ (moving.cover 0).moving = true ∧
    (withCover { Cover.blank with travel := dueTimer } live).timerDue (.travel 0) = true ∧
    moving.coverRec 0 = some cover0 ∧ moving.upstream.length < 64 ∧
    (withCover { closedCover with interval := dueTimer } live).timerDue (.purgeInterval 0) = true ∧
    live.timerDue (.purgeInterval 0) = false ∧ live.coverRec 5 = none ∧ (live.cover 0).purge ≠ .waiting ∧
    live.timerDue (.validity 0) = false ∧
    (withCover { closedCover with validity := dueTimer } live).timerDue (.validity 0) = true ∧
    (after (exec (.travelTimerExpiry 0) moving)).latched.coverFault = true ∧
    ((after (exec (.purgeIntervalExpiry 0) (withCover { closedCover with interval := dueTimer } live))).cover 0).duration.remaining
      = 30 ∧
    ((after (exec (.purgeIntervalExpiry 0) (withCover { closedCover with interval := dueTimer } live))).zone 0).fanFloor = 600 ∧
    (let s := withCover running1 (live.setZone 0 { live.zone 0 with oaFloor := 300, fanFloor := 600 })
     ((after (exec (.purgeDurationExpiry 0) s)).zone 0).oaFloor = 0) := by decide +kernel

theorem test_meets_PurgeRunEnds :
    let s := withCover running1 lit
    s.timerDue (.purgeDuration 0) = true ∧ live.timerDue (.purgeDuration 0) = false ∧
    (withCover { closedCover with duration := dueTimer } live).timerDue (.purgeDuration 0) = true ∧
    ((withCover { closedCover with duration := dueTimer } live).cover 0).purging = false ∧
    s.coverRec 0 = some cover0 ∧ (s.cover 0).purging = true ∧ s.upstream.length < 64 ∧
    s.interlock cover0 false = none ∧ (withCover running1 live).interlock cover0 false ≠ none ∧
    (s.status (pt 6)).quality ≠ .lost ∧
    ((after (exec (.purgeDurationExpiry 0) s)).cover 0).valid = true ∧
    ((after (exec (.purgeDurationExpiry 0) (withCover { running1 with openPending := true } lit))).cover 0).state = .opening ∧
    ((after (exec (.purgeDurationExpiry 0) (withCover { running1 with openPending := true } live))).cover 0).state = .closed ∧
    hasNotice (after (exec (.purgeDurationExpiry 0) (withCover { running1 with confirmed := false } lit))) .purgeFailed 0 2 0 0 ∧
    (let pending := { running1 with openPending := true }
     hasNotice (after (exec (.purgeDurationExpiry 0) (withCover pending live))) .coverEvent 0 8 0 1 ∧
     hasNotice (after (exec (.purgeDurationExpiry 0) (withCover { pending with runFailed := true } lit))) .coverEvent 0 8 0 1) ∧
    s.point (pt 6) = some (actuator 6 .purgeFan .cover 1) ∧ (statusIn s.table (pt 6)).isSome = true ∧
    ((after (exec (.purgeDurationExpiry 0) s)).segment 0).queue = [⟨pt 6, 0, 0, .cover, 0⟩] ∧
    hasNotice (after (exec (.purgeDurationExpiry 0) (withStatus 6 (fun st => { st with quality := .lost }) s)))
      .purgeFailed 0 3 0 0 := by
  simp only [hasNotice]; decide +kernel

/-- A pending open that a successful run abandons waits with both timers; one that it starts has neither. -/
theorem test_meets_PendingOpens :
    let ended (s : State) := (after (exec (.purgeDurationExpiry 0) (withCover { running1 with openPending := true } s))).cover 0
    (withCover { running1 with openPending := true } live).interlock cover0 false = some .dark ∧
    (ended live).purge = .waiting ∧ (ended live).interval.remaining = 600 ∧ (ended live).validity.remaining = 60 ∧
    (ended lit).interval.running = false ∧ (ended lit).validity.running = false := by decide +kernel

theorem test_meets_Positions :
    let at' (v : CoverState) : State := withCover { Cover.blank with state := v, derivePending := decide (v = .halted) } live
    let goes (v : CoverState) (p : Int) : CoverState := (((at' v).positionTo 0 cover0 .good (some p)).cover 0).state
    goes .closing 990 = .closed ∧ goes .closing 989 = .closing ∧ goes .opening 10 = .opened ∧ goes .opening 11 = .opening ∧
    goes .halted 990 = .closed ∧ goes .halted 989 = .halted ∧ goes .halted 11 = .halted ∧ goes .halted 10 = .opened ∧
    (((at' .halted).positionTo 0 cover0 .suspect (some 0)).cover 0).derivePending = true ∧
    (((at' .halted).positionTo 0 cover0 .good none).cover 0).derivePending = true ∧
    (((at' .closing).positionTo 0 cover0 .unknown none).cover 0).state = .closing ∧
    (((at' .opening).positionTo 0 cover0 .good none).cover 0).state = .opening ∧
    goes .opened 1000 = .opened ∧ ((at' .closing).cover 0).moving = true ∧ ((at' .halted).cover 0).derivePending = true ∧
    ((at' .opened).cover 0).moving = false ∧ (at' .closing).upstream.length < 64 ∧
    (Cover.blank.derived cover0 { PointStatus.unknown with quality := .stale, value := 990 }).state = .closed ∧
    (Cover.blank.derived cover0 { PointStatus.unknown with quality := .good, value := 10 }).state = .opened ∧
    (Cover.blank.derived cover0 { PointStatus.unknown with quality := .good, value := 11 }).derivePending = false ∧
    (Cover.blank.derived cover0 PointStatus.unknown).derivePending = true := by decide +kernel

/-- The cover of the installation is its only one, and its drive serves nothing else. -/
theorem test_meets_OwnDrive : moving.ownDrive 0 cover0 (actuator 5 .coverDrive .cover 2) ∧ (moving.cover 0).moving = true := by
  refine ⟨⟨rfl, ?_, ?_, ?_, fun j q h => ?_⟩, ?_⟩
  all_goals try decide +kernel
  have only : ∀ j, (moving.coverRec j).all (fun q =>
      decide (q.fan ≠ cover0.drive ∧ (j ≠ 0 → q.drive ≠ cover0.drive))) = true := by decide +kernel
  have hj := only j
  rw [h] at hj
  exact of_decide_eq_true hj

/-- The SET 0 and the event of a completion, of a halt for SENSOR and of a resolved derivation; a withheld SET 0 marks the
drive. -/
theorem test_meets_PositionOutputs :
    let at' (v : CoverState) : State := withCover { Cover.blank with state := v, derivePending := decide (v = .halted) } live
    let good (v : CoverState) (p : Int) : State := (at' v).positionTo 0 cover0 .good (some p)
    let queued (s : State) := (s.segment 0).queue.map fun e => (e.point.chan, e.value)
    hasNotice (good .closing 990) .coverEvent 0 0 0 0 ∧ queued (good .closing 990) = [(5, 0)] ∧
    hasNotice (good .opening 10) .coverEvent 0 1 0 0 ∧ queued (good .opening 10) = [(5, 0)] ∧
    hasNotice ((at' .opening).positionTo 0 cover0 .suspect (some 500)) .coverEvent 0 3 0 0 ∧
    queued ((at' .closing).positionTo 0 cover0 .stale none) = [(5, 0)] ∧
    hasNotice (good .halted 990) .coverEvent 0 0 0 0 ∧ hasNotice (good .halted 10) .coverEvent 0 1 0 0 ∧
    queued (good .halted 990) = [] ∧ (good .halted 500).upstream = [] ∧ (good .opened 1000).upstream = [] ∧
    live.point (pt 5) = some (actuator 5 .coverDrive .cover 2) ∧ cover0.fan ≠ cover0.drive ∧
    (statusIn live.table (pt 5)).isSome = true ∧
    (((queueing eight (at' .closing)).positionTo 0 cover0 .lost none).status (pt 5)).resend = true := by
  simp only [hasNotice]; decide +kernel

theorem test_travel_setting : travelPair 3600 = ⟨15, 240⟩ ∧ travelPair 1000 = ⟨4, 250⟩ ∧ travelPair 1001 = ⟨4, 250⟩ ∧
    travelPair 256 = ⟨1, 256⟩ := by decide +kernel

/-! ### Climate -/

/-- The worked cases of Section 6.6. -/
theorem test_worked_dew_points :
    (airStages 3050 600).dew = 2186 ∧ (airStages (-500) 800).dew = -790 ∧ (airStages 7200 1000).dew = 6000 ∧
    (airStages 7200 0).dewLow = true ∧ (airStages 2000 500).dew = 923 := by decide +kernel

theorem test_meets_ClimateStages :
    (3050 : Int) < 6001 ∧ (airStages 6001 500).clamped = true ∧ (airStages 6000 500).clamped = false ∧
    (airStages (-2001) 500).clamped = true ∧ (airStages (-2000) 1000).dewLow = false ∧
    (airStages (-2000) 999).dewLow = true ∧ zone0.hpOff < zone0.hpOn ∧
    (let v (d : Int) : Zone := { Zone.start with strategy := .heatPump, dehum := d, hp := true }
     hpStage zone0 (v 400) = true ∧ hpStage zone0 (v 200) = false ∧ hpStage zone0 (v 201) = true ∧
       hpStage zone0 { v 399 with hp := false } = false ∧ hpStage zone0 { v 1000 with strategy := .outdoorAir } = false) ∧
    (let o : Outdoor := { Outdoor.blank with usable := true, dew := 1200 }
     strategyOf zone0 o { Zone.start with dehum := 1 } = .outdoorAir ∧
       strategyOf zone0 { o with dew := 1201 } { Zone.start with dehum := 1 } = .heatPump ∧
       strategyOf zone0 o Zone.start = .none) ∧
    zone0.weight ≠ 0 ∧ (outputsOf { zone0 with weight := 0 } false { Zone.start with grant := 5 }).valve = 0 ∧
    dehumDemand zone0 .full { Zone.start with dew := 1600, margin := 200 } = 200 ∧
    dehumDemand zone0 .full { Zone.start with dew := 1600, margin := 300 } = 200 ∧
    dehumDemand zone0 .full { Zone.start with dew := 1600, margin := 100 } = 400 := by decide +kernel

/-- The inversion at P[0] − 1, at P[0], between P[0] and P[1], between two later entries, below P[40] and at it; the least
of a list; a PLANT record's order. -/
theorem test_meets_Inversion :
    [125, 126, 148, 149, 4373, 19945, 19946, 20000].map dewOf = [-2000, -2000, -1809, -1800, 3049, 5999, 6000, 6000] ∧
    sat 25 ≤ 4373 ∧ 4373 < sat 26 ∧
    leastOf [PointStatus.unknown, { PointStatus.unknown with value := -3 }] = some (-3) ∧
    (∀ g ∈ [0, 1, 2, 3], g ∈ [1, 0, 2, 3]) := by decide +kernel

theorem test_meets_StarvationAndSetpoint :
    let starved (n : Nat) (b : Bool) := live.setZone 0
      { live.zone 0 with request := 5, grant := 4, starved := n, unstarved := 3 - n, plantShort := b }
    let fed (n : Nat) (b : Bool) := live.setZone 0 { live.zone 0 with unstarved := n, plantShort := b }
    let closed := withCover { Cover.blank with state := .closed } live
    ((starved 2 false).starvation 0).latched.plantShort = true ∧ (((starved 1 false).starvation 0).zone 0).plantShort = false ∧
    (((starved 1 true).starvation 0).zone 0).unstarved = 0 ∧ live.upstream.length < 64 ∧
    hasNotice ((starved 2 false).starvation 0) .plantShort 0 1 5 0 ∧ hasNotice ((fed 2 true).starvation 0) .plantShort 0 0 0 0 ∧
    (((fed 1 true).starvation 0).zone 0).plantShort = true ∧ closed.coversClosed 0 = true ∧ live.coversClosed 0 = false ∧
    live.coversClosed 1 = true ∧ (setpointStage zone0 (some 2800) true Zone.start).setpoint = 2700 ∧
    (setpointStage zone0 (some 3100) false Zone.start).setpoint = 3000 ∧ (setpointStage zone0 none true Zone.start).setpoint = 2500 ∧
    (setpointStage zone0 none true { Zone.start with setpointValid := true, setpoint := 3100 }).setpoint = 3000 := by
  simp only [hasNotice]; decide +kernel

def evaluating (s : State) : State := s.setZone 0 { s.zone 0 with evalTimer := dueTimer }

/-- Warm damp air over a cold pane: the zone is at risk after the evaluation. -/
def damp : State :=
  withStatus 0 (fun st => { st with value := 3050 }) (withStatus 1 (fun st => { st with value := 600 })
    (withStatus 2 (fun st => { st with value := 1800 }) live))

/-- With a usable water temperature of 0. -/
def pooled : State := runningWith (records0 ++ [⟨17, .point (sensor 12 .waterTemp 6000)⟩])

theorem test_meets_Evaluation :
    let s := evaluating damp
    (let plain := live.setZone 0 { live.zone 0 with evalTimer := Timer.idle }
     plain.timerDue (.evaluation 0) = false) ∧
    s.timerDue (.evaluation 0) = true ∧ { s with mode := some .dormant }.mode = some .dormant ∧ live.zoneRec 1 = none ∧
    s.mode ≠ some .dormant ∧ s.zoneRec 0 = some zone0 ∧ (0 : Fin 8) ∈ s.priority ∧ s.priority.Nodup ∧ s.course 0 = .full ∧
    (withStatus 0 (fun _ => PointStatus.unknown) s).course 0 = .held ∧
    (withStatus 2 (fun _ => PointStatus.unknown) s).course 0 = .dewOnly ∧
    ((after (exec (.evaluationTimerExpiry 0) s)).zone 0).margin = -386 ∧
    (after (exec (.evaluationTimerExpiry 0) s)).latched.condensation = true ∧
    ((after (exec (.evaluationTimerExpiry 0) s)).zone 0).evalTimer.remaining = 5 ∧
    meanOf (s.waterPoints 0) = none ∧
    meanOf (pooled.waterPoints 0) = some 0 ∧
    (s.zone 0).request ≤ (s.zone 0).grant ∧ s.priority = [] ++ 0 :: [1, 2, 3, 4, 5, 6, 7] ∧ (0 ≤ (s.zone 0).heat ∧ (s.zone 0).heat ≤ 1000) := by decide +kernel

/-- With outdoor points GOOD at 5.00 °C and 60.0 %. -/
def outside : State :=
  let s := runningWith (records0 ++ [⟨17, .point { sensor 12 .outdoorTemp 6000 with zone := none }⟩,
    ⟨18, .point { sensor 13 .outdoorRh 1000 with zone := none }⟩])
  withStatus 12 (fun st => { st with value := 500 }) (withStatus 13 (fun st => { st with value := 600 }) s)

/-- The three courses on one zone, the outdoor record with and without usable points, and the sending of an output: never
sent, within the deadband, at it, at a refresh, wanted, and never commanded. -/
theorem test_meets_Moisture :
    let run (s : State) := after (exec (.evaluationTimerExpiry 0) (evaluating s))
    let held := withStatus 0 (fun _ => PointStatus.unknown) damp
    let dewOnly := withStatus 2 (fun _ => PointStatus.unknown) damp
    let stale := withStatus 2 (fun st => { st with quality := .stale }) damp
    ((run damp).zone 0).air = 3050 ∧ ((run damp).zone 0).dew = 2186 ∧ ((run damp).zone 0).marginValid = true ∧
    ((run damp).zone 0).degraded = false ∧ ((run stale).zone 0).degraded = true ∧ ((run held).zone 0).degraded = true ∧
    ((run held).zone 0).air = 0 ∧ ((run dewOnly).zone 0).marginValid = false ∧ ((run dewOnly).zone 0).dew = 2186 ∧
    meanOf (damp.contributors .outdoorTemp none) = none ∧ (run damp).outdoor.usable = false ∧
    meanOf (outside.contributors .outdoorTemp none) = some 500 ∧ meanOf (outside.contributors .outdoorRh none) = some 600 ∧
    (run outside).outdoor.usable = true ∧ (run outside).outdoor.temp = 500 := by decide +kernel

theorem test_meets_Sending :
    let run (s : State) := after (exec (.evaluationTimerExpiry 0) (evaluating s))
    let sent (last : Option Int) (n : Nat) := withStatus 9 (fun st => { st with commanded := some 0 })
      (damp.setZone 0 { damp.zone 0 with lastValve := last, refresh := n })
    let settled := sent (some 9) 0
    let wanted := withStatus 9 (fun st => { st with resend := true }) settled
    ((run settled).zone 0).lastValve = some 9 ∧ ((run settled).segment 0).queue = [] ∧ (run settled).mode = some .staffed ∧
    ((run (sent (some 10) 0)).zone 0).lastValve = some 0 ∧ ((run (sent (some 9) 5)).zone 0).lastValve = some 0 ∧
    ((run (sent none 0)).zone 0).lastValve = some 0 ∧ ((run wanted).zone 0).lastValve = some 0 ∧
    ((run wanted).segment 0).queue = [⟨pt 9, 0, 0, .climate, 0⟩] ∧ (damp.points.map (·.id)).Nodup ∧
    damp.point (pt 9) = some heat ∧ (statusIn damp.table (pt 9)).isSome = true := by decide +kernel

/-- The risk flag set and cleared, and plant-short set and cleared, with what they latch and queue (R100, R102). -/
theorem test_meets_RiskNotices :
    let run (s : State) := after (exec (.evaluationTimerExpiry 0) (evaluating s))
    let short (b : Bool) (n : Nat) := live.setZone 0
      { live.zone 0 with request := 5, grant := if b then 5 else 4, starved := 2, unstarved := n, plantShort := b }
    damp.upstream.length < 57 ∧ hasNotice (run damp) .condensationSet 0 (-386) 2186 0 ∧
    (damp.zone 0).risk = false ∧ (atRisk.zone 0).risk = true ∧ atRisk.course 0 = .full ∧
    ((run atRisk).zone 0).margin = 2000 ∧ hasNotice (run atRisk) .condensationClear 0 2000 (-2000) 0 ∧
    (run atRisk).latched.condensation = false ∧ (run (short false 0)).latched.plantShort = true ∧
    hasNotice (run (short false 0)) .plantShort 0 1 5 0 ∧ hasNotice (run (short true 2)) .plantShort 0 0 5 0 ∧
    (damp.watchEvaluations.zone 0).risk = true ∧ damp.watchEvaluations.latched.condensation = true ∧
    hasNotice damp.watchEvaluations .condensationSet 0 (-386) 2186 0 ∧
    hasNotice atRisk.watchEvaluations .condensationClear 0 2000 (-2000) 0 := by
  simp only [hasNotice]; decide +kernel

def unseen : State := withStatus 4 (fun _ => PointStatus.unknown) live

def holding (s : State) : State := s.setZone 0 { s.zone 0 with holdTimer := dueTimer }

theorem test_meets_HoldAndWatch :
    live.timerDue (.occupancyHold 0) = false ∧ (holding live).timerDue (.occupancyHold 0) = true ∧
    (after (exec (.occupancyHoldExpiry 0) (occupiedZone (holding live))) |>.zone 0).occupied = false ∧
    ((holding unseen).zone 0).occupied = false ∧
    (after (exec (.occupancyHoldExpiry 0) (holding unseen)) |>.zone 0).occupied = true ∧
    { damp with watch := dueTimer, mode := some .dormant }.timerDue .dormantWatch = true ∧
    (after (exec .dormantWatchExpiry { damp with watch := dueTimer, mode := some .dormant })).mode = some .night ∧
    live.timerDue .dormantWatch = false ∧ after (exec .dormantWatchExpiry damp) = damp ∧
    (after (exec .dormantWatchExpiry { damp with watch := dueTimer }) |>.watch.remaining) = 5 ∧
    (after (exec .dormantWatchExpiry { damp with watch := dueTimer }) |>.zone 0).risk = true ∧
    damp.zoneRec 0 = some zone0 ∧ damp.course 0 = .full ∧ (damp.zoneRec 1).isNone = true ∧ damp.course 1 ≠ .full := by
  decide +kernel

/-- A closing cover when its zone becomes occupied: at the end of a hold, by a point that goes STALE, LOST or SUSPECT. -/
theorem test_meets_OccupiedHalt :
    let closing (s : State) := withCover { Cover.blank with state := .closing, travel := dueTimer } s
    let aged := withStatus 4 (fun st => { st with age := 30 }) (closing live)
    let missing := (closing live).setSegment 0
      { live.segment 0 with nodes := (live.segment 0).nodes.set 4 ⟨.present, 2, false⟩ }
    let seen (v : Int) := after (exec (.sample 0 4 4 0 v 0) (polled regular (closing live)))
    let hot := withStatus 4 (fun st => { st with quality := .suspect }) (polled regular (closing live))
    (closing unseen).coverRec 0 = some cover0 ∧ ((closing unseen).cover 0).state = .closing ∧
    (((closing unseen).occupiedCovers 0).cover 0).haltReason = some .occupied ∧
    ((closing unseen).occupiedCovers 1).cover 0 = (closing unseen).cover 0 ∧ ((closing live).zone 0).occupied = false ∧
    (closing live).point (pt 4) = some { sensor 4 .occupancy 1 with policy := .onChange, delta := 1 } ∧
    30 < min ((aged.status (pt 4)).age + 1) 65535 ∧ (after (exec .agingSweep aged) |>.zone 0).occupied = true ∧
    ((after (exec .agingSweep aged)).cover 0).haltReason = some .occupied ∧
    (missing.completeExchange 0 regular |>.zone 0).occupied = true ∧
    ((missing.completeExchange 0 regular).cover 0).state = .halted ∧
    ((seen 2).zone 0).occupied = true ∧ ((seen 2).cover 0).haltReason = some .occupied ∧ ((seen 0).cover 0).state = .closing ∧
    (after (exec (.sample 0 4 4 0 2 0) hot) |>.zone 0).occupied = false := by decide +kernel

theorem test_meets_Deliveries :
    let asleep (s : State) : State := { s with mode := some .dormant }
    let purging := withCover running1 live
    let waiting (s : State) : State := { s with mode := some .night, dormantPending := true }
    (asleep live).mode = some .dormant ∧ (purging.cover 0).purging = true ∧ (live.cover 0).purging = false ∧
    (atRisk.zone 0).risk = true ∧ (live.zone 0).risk = false ∧ (withLatch .evacuate live).evacuating = true ∧
    live.evacuating = false ∧ (moving.cover 0).moving = true ∧ live.blocker = none ∧ atRisk.blocker ≠ none ∧
    (wake live (asleep purging)).mode = some .night ∧ (wake live (asleep atRisk)).dormantPending = true ∧
    (wake live live).mode = some .staffed ∧
    (recheck (waiting atRisk) (waiting live)).mode = some .dormant ∧
    (recheck (waiting live) (waiting live)).mode = some .night ∧
    (recheck (waiting moving) (waiting atRisk)).mode = some .night := by decide +kernel

/-! ### Time -/

theorem test_meets_Timers :
    live.timerDue (.evaluation 0) = false ∧ (evaluating live).timerDue (.evaluation 0) = true ∧
    fullMinute.running = true ∧ fullMinute.due = false ∧ Timer.idle.running = false ∧ 1 ≤ fullMinute.prescaler ∧
    fullMinute.remaining = 60 ∧ dueTimer.due = true ∧ (Timer.idle.start ⟨0, 9⟩).running = false ∧
    (fullMinute.startOnce ⟨1, 61⟩) = fullMinute ∧ dueTimer.expireContinuous.remaining = 5 := by decide +kernel

/-- Table 5-4: the purge interval (60, 120) at its start, after 1 tick, after 60, and one tick before it expires. -/
theorem test_purge_interval :
    let start := Timer.idle.start ⟨60, 120⟩
    start.remaining = 7200 ∧ start.tick.prescaler = 59 ∧ (Nat.repeat Timer.tick 60 start).prescaler = 60 ∧
    (Nat.repeat Timer.tick 60 start).count = 119 ∧ { start with prescaler := 1, count := 1 }.due = true := by decide +kernel

theorem test_meets_AgingSweep :
    let old := withStatus 3 (fun st => { st with age := 30 }) moving
    ready.active = none ∧ live.active ≠ none ∧ live.point (pt 3) = some (sensor 3 .coverPosition 1000) ∧
    live.point ⟨0, 4, 15⟩ = none ∧ (statusIn live.table (pt 3)).isSome = true ∧ (old.status (pt 3)).quality = .good ∧
    30 < min ((old.status (pt 3)).age + 1) 65535 ∧ old.coverAtPosition (pt 3) = some (0, cover0) ∧
    (old.cover 0).moving = true ∧ ((after (exec .agingSweep old)).cover 0).haltReason = some .sensor ∧
    ((after (exec .agingSweep (withStatus 3 (fun st => { st with age := 29 }) moving))).cover 0).state = .closing := by
  decide +kernel

/-- Halts for SENSOR and OCCUPIED by the sweep, a sample and a lost node, with their event and the drive's SET 0; with both
causes the position, defined first, gives the reason (log 62). -/
theorem test_meets_HaltsFor :
    let old (c : Nat) (s : State) := withStatus c (fun st => { st with age := 30 }) s
    let lost (s : State) := s.setSegment 0 { s.segment 0 with nodes := (s.segment 0).nodes.set 4 ⟨.present, 2, false⟩ }
    let why (s : State) := (s.cover 0).haltReason
    let queued (s : State) := (s.segment 0).queue.map fun e => (e.point.chan, e.value)
    let swept := after (exec .agingSweep (old 3 moving))
    let emptied := after (exec .agingSweep (old 4 moving))
    let hot := after (exec (.sample 0 4 3 0 2000 0) (polled regular moving))
    moving.upstream.length < 58 ∧ hasNotice swept .coverEvent 0 3 0 0 ∧ queued swept = [(5, 0)] ∧
    hasNotice emptied .coverEvent 0 4 0 0 ∧ queued emptied = [(5, 0)] ∧
    (emptied.status cover0.position).quality = (moving.status cover0.position).quality ∧
    why (after (exec .agingSweep (old 4 (old 3 moving)))) = some .sensor ∧
    (swept.zone cover0.zoneNo).occupied = (moving.zone cover0.zoneNo).occupied ∧ why hot = some .sensor ∧
    hasNotice hot .coverEvent 0 3 0 0 ∧ queued hot = [(5, 0)] ∧
    why ((lost moving).completeExchange 0 regular) = some .sensor ∧
    hasNotice ((lost moving).completeExchange 0 regular) .coverEvent 0 3 0 1 ∧
    (((lost moving).completeExchange 0 regular).status (pt 5)).resend = true := by
  simp only [hasNotice]; decide +kernel

def echoing (o : Owner) (v : Int) (c : Nat) (s : State) : State := { s with echoes := [⟨pt c, 9, v, o, 7, dueTimer⟩] }

theorem test_meets_EchoMiss :
    let s := echoing .cover 1 6 (withStatus 6 (fun st => { st with misses := 2 }) (withCover running1 live))
    live.timerDue (.echo (pt 6)) = false ∧ s.timerDue (.echo (pt 6)) = true ∧
    (echoing .station 1 15 live).timerDue (.echo (pt 15)) = true ∧ (echoing .station 1 15 live).actuatorAt (pt 15) = none ∧
    s.point (pt 6) = some (actuator 6 .purgeFan .cover 1) ∧ (actuator 6 .purgeFan .cover 1).isActuator = true ∧
    (statusIn s.table (pt 6)).isSome = true ∧ (s.status (pt 6)).misses = 2 ∧ s.upstream.length < 64 ∧
    s.coverAtFan (pt 6) = some (0, cover0) ∧ (s.cover 0).purging = true ∧
    ((after (exec (.echoMiss (pt 6)) s)).status (pt 6)).quality = .lost ∧
    hasNotice (after (exec (.echoMiss (pt 6)) s)) .pointLost 70 3 1 0 ∧
    ((after (exec (.echoMiss (pt 6)) s)).cover 0).runFailed = true ∧ ((after (exec (.echoMiss (pt 6)) s)).status (pt 6)).resend = true := by
  simp only [hasNotice]; decide +kernel

theorem test_meets_PoweringReleased :
    let s := powering [pt 8] (echoing .lighting 1 8 live)
    s.supply 0 = some ⟨.powering, [pt 8], Timer.idle⟩ ∧ s.actuatorAt (pt 8) = some (actuator 8 .lampSupply .lighting 1) ∧
    s.timerDue (.echo (pt 8)) = true ∧ (polled regular s).echoEntry (pt 8) 9 = some ⟨pt 8, 9, 1, .lighting, 7, dueTimer⟩ ∧
    s.point (pt 7) = some (actuator 7 .lamp .lighting 1000) ∧ s.lamp (pt 7) = some deferredLamp ∧ (s.points.map (·.id)).Nodup ∧
    (after (exec (.echoMiss (pt 8)) s)).supplyState 0 = some .on ∧
    ((after (exec (.echoMiss (pt 8)) s)).segment 0).queue.map (fun e => (e.point.chan, e.value)) = [(7, 700), (8, 1)] ∧
    (after (exec (.echo 0 4 8 9 1 0) (polled regular s))).supplyState 0 = some .on ∧
    ((after (exec (.echo 0 4 8 9 1 0) (polled regular s))).segment 0).queue = [⟨pt 7, 700, 50, .lighting, 0⟩] := by
  decide +kernel

/-! ### The field link -/

def round (counter : Fin 4) (pos : Nat) (pointer : Fin 31) (s : State) : State := s.setSegment 0
  { s.segment 0 with roundCounter := counter, roundPos := pos, rollCall := pointer }

theorem test_meets_Polls :
    ((polled regular live).segment 0).exchange ≠ none ∧ (live.segment 0).exchange = none ∧
    (live.segment 0).nodes[(4 : Fin 31)].state = .present ∧ (live.segment 0).roundPos ≤ 4 ∧
    (∀ m : Fin 31, ((live.segment 0).nodes[m]).state = .present → m.val < ((round 3 5 4 live).segment 0).roundPos) ∧
    ((round 3 5 4 live).segment 0).roundCounter = 3 ∧ ((round 2 5 4 live).segment 0).roundCounter ≠ 3 ∧
    (live.segment 0).nodes[(5 : Fin 31)].state ≠ .present ∧ (∀ j : Fin 31, j < 1 → ((live.segment 0).nodes[4 + j]).state = .present) ∧
    (∀ m : Fin 31, (((away live).segment 0).nodes[m]).state ≠ .present) ∧
    ((after (exec (.rollCallPoll 0) (round 3 5 4 live))).segment 0).exchange.map (·.node) = some 5 ∧
    ((after (exec (.rollCallPoll 0) (round 3 5 4 live))).segment 0).rollCall = 6 ∧
    (after (exec (.rollCallPoll 0) (round 2 5 4 live))) = round 2 5 4 live ∧
    ((after (exec (.segmentPoll 0) (round 2 5 4 live))).segment 0).roundCounter = 3 ∧
    ((after (exec (.segmentPoll 0) live)).segment 0).lastFrame.map (fun f => f.bytes.take 8) =
      some [0xC3, 0, 0x40, 0, 4, 0, 0, 0] := by decide +kernel

theorem test_meets_Polls_allPresent :
    let all := live.setSegment 0 { live.segment 0 with nodes := Vector.replicate 31 ⟨.present, 0, false⟩ }
    (∀ m : Fin 31, ((all.segment 0).nodes[m]).state = .present) ∧
    ((after (exec (.segmentPoll 0) (round 3 31 4 all))).segment 0).roundPos = 1 := by decide +kernel

theorem test_meets_Sample :
    let s := polled regular live
    let call := polled { regular with rollCall := true } live
    let every (k : Nat) := withStatus 11 (fun st => { st with counter := k }) s
    (s.segment 0).exchange = some regular ∧ (4 : Byte).toNat = regular.node.val ∧ regular.frames < 4 ∧
    ({ regular with rollCall := true }.rollCall = true ∧ regular.helloSeen = false) ∧ s.point ⟨0, 4, 15⟩ = none ∧
    s.point (pt 10) = some (actuator 10 .generic .station 500) ∧ s.point (pt 0) = some (sensor 0 .airTemp 6000) ∧
    (statusIn s.table (pt 0)).isSome = true ∧ s.coverAtPosition (pt 3) = some (0, cover0) ∧
    (s.zoneRec 0).isSome = true ∧ 1 ≤ s.hall.hold.prescale ∧
    (after (exec (.sample 0 4 0 0 6001 0) s) |>.status (pt 0)).quality = .suspect ∧
    (after (exec (.sample 0 4 0 0 6000 0) s) |>.status (pt 0)).value = 6000 ∧
    (after (exec (.sample 0 4 1 0 1012 0) s) |>.status (pt 1)).value = 1000 ∧
    (after (exec (.sample 0 4 1 0 (-1) 0) s) |>.status (pt 1)).quality = .suspect ∧
    (after (exec (.sample 0 4 11 0 5 0) (every 3)) |>.upstream).length = 1 ∧
    (after (exec (.sample 0 4 11 0 5 0) (every 2)) |>.upstream).length = 0 ∧
    (after (exec (.sample 0 4 11 0 5 0) { every 3 with upstream := fullQueue }) |>.status (pt 11)).missed = true ∧
    (after (exec (.sample 0 4 4 0 1 0) s) |>.zone 0).occupied = true ∧
    (after (exec (.sample 0 4 4 0 0 0) s) |>.zone 0).occupied = false ∧
    (after (exec (.sample 0 4 0 0 5 0) call) |>.upstream).length = 0 ∧ sensorStatusOf 0 = .ok := by decide +kernel

theorem test_meets_Echo :
    let s := polled regular (echoing .cover 1 6 (withCover { running1 with confirmed := false } live))
    s.echoEntry (pt 6) 9 = some ⟨pt 6, 9, 1, .cover, 7, dueTimer⟩ ∧ s.echoEntry (pt 6) 8 = none ∧
    s.actuatorAt (pt 6) = some (actuator 6 .purgeFan .cover 1) ∧ s.actuatorAt (pt 15) = none ∧
    s.coverAtFan (pt 6) = some (0, cover0) ∧ (s.cover 0).purging = true ∧ s.upstream.length < 64 ∧
    ((after (exec (.echo 0 4 6 9 1 0) s)).cover 0).confirmed = true ∧
    ((after (exec (.echo 0 4 6 9 0 0) s)).cover 0).confirmed = false ∧
    ((after (exec (.echo 0 4 6 9 1 2) s)).cover 0).runFailed = true ∧
    ((after (exec (.echo 0 4 6 9 1 3) s)).status (pt 6)).quality = .suspect ∧
    ((after (exec (.echo 0 4 6 8 1 0) s)).status (pt 6)).late = 1 ∧
    (after (exec (.echo 0 4 10 9 5 0) (polled regular (echoing .station 5 10 live)))).upstream = [.echo (pt 10) 7 5 0] := by
  decide +kernel

theorem test_meets_Hello :
    let s := polled { regular with rollCall := true } (away (echoing .station 1 10 live))
    (s.segment 0).exchange = some { regular with rollCall := true } ∧ regular.frames < 4 ∧ s.upstream.length < 64 ∧
    s.point (pt 9) = some heat ∧ heat.isActuator = true ∧ (statusIn s.table (pt 9)).isSome = true ∧
    (after (exec (.hello 0 4 7 16) s)).echoes = [] ∧
    hasNotice (after (exec (.hello 0 4 7 16) s)) .nodeJoined 4 1 7 0 ∧
    ((after (exec (.hello 0 4 7 16) s)).status (pt 9)).quality = .unknown ∧
    ((after (exec (.hello 0 4 7 16) s)).status (pt 0)).quality = .good := by
  simp only [hasNotice]; decide +kernel

def pendingOn (n : Nat) : List PendEntry := (List.range n).map fun i => ⟨⟨2, i / 16, i % 16⟩, 0, 0, .station, 0, dueTimer⟩

theorem test_meets_Exchanges :
    let full := { regular with answered := true, frames := 4 }
    let missing (n : Nat) := live.setSegment 0
      { live.segment 0 with nodes := (live.segment 0).nodes.set 4 ⟨.present, n, false⟩ }
    (live.segment 0).exchange = none ∧ ((polled regular live).segment 0).exchange = some regular ∧
    (5 : Byte).toNat ≠ regular.node.val ∧ (full.answered = true ∧ 4 ≤ full.frames) ∧ regular.answered = false ∧
    ((missing 1).segment 0).nodes[(4 : Fin 31)].misses < 2 ∧ 2 ≤ ((missing 2).segment 0).nodes[(4 : Fin 31)].misses ∧
    ((missing 2).completeExchange 0 regular |>.status (pt 0)).quality = .lost ∧
    ((missing 1).completeExchange 0 regular |>.segment 0).missCount = 1 ∧
    (let s := queueing [⟨pt 10, 1, 0, .station, 0⟩, ⟨pt 9, 320, 0, .climate, 0⟩, ⟨⟨0, 9, 0⟩, 0, 0, .station, 0⟩] (missing 2)
     let t := { s with echoes := pendingOn 32 }.completeExchange 0 regular
     (t.segment 0).queue = [⟨⟨0, 9, 0⟩, 0, 0, .station, 0⟩] ∧ (t.status (pt 9)).resend = true) ∧
    hasNotice ((missing 2).completeExchange 0 regular) .nodeLost 4 3 0 0 ∧ (live.segment 0).queue = [] := by
  simp only [hasNotice]; decide +kernel

/-- Table 2-6: the head waits for room in the Pending Echo List, and one of its own point makes it. -/
theorem test_meets_SendHead :
    let s := queueing [⟨pt 9, 640, 0, .climate, 0⟩, ⟨pt 10, 1, 0, .station, 5⟩] live
    ¬ ({ s with echoes := pendingOn 32 }.echoes.length < 32) ∧
    ({ s with echoes := pendingOn 32 }.sendHead 0 |>.segment 0).queue.length = 2 ∧
    ({ s with echoes := pendingOn 31 }.sendHead 0 |>.segment 0).queue = [⟨pt 10, 1, 0, .station, 5⟩] ∧
    ({ s with echoes := ⟨pt 9, 0, 0, .climate, 0, dueTimer⟩ :: pendingOn 31 }.sendHead 0 |>.segment 0).fieldSeq = 1 ∧
    ({ s with echoes := pendingOn 31 }.sendHead 0 |>.status (pt 9)).commanded = some 640 := by decide +kernel

/-- The POLL of segment B's node 4 and a SET, byte for byte (Tables 12-1 and 12-2). -/
theorem test_meets_Frames :
    let poll : Frame := { addr := 0, kind := 0x40, seg := 1, service := false, more := false, node := 4, chan := 0, seq := 0, payload := [] }
    let set' : Frame := { poll with kind := 0x22, chan := 2, seq := 254, payload := [0, 0, 2, 0x80, 0, 30] }
    poll.bytes = [0xC3, 0, 0x40, 0x10, 4, 0, 0, 0, 0x55, 0x75] ∧ set'.payload.length ≤ 40 ∧
    payloadFits .segment set'.kind set'.payload = true ∧ (set'.bytes.take 14) = [0xC3, 0, 0x22, 0x10, 4, 2, 254, 6, 0, 0, 2, 0x80, 0, 30] ∧
    listen .segment .hunting ([7, 0] ++ set'.bytes) = (.hunting, [.frame set']) ∧
    getS32 (s32 (-2147483648)) 0 = -2147483648 ∧ getS32 (s32 2147483647) 0 = 2147483647 := by decide +kernel

/-! ### Input lines -/

def lineUp (a : Action) (l : Latching) : State :=
  (runningWith (recordsWith (input0 a l))).setInput 0 { level := .high, settling := true, debounced := .low, latch := none }

theorem test_meets_InputLines :
    let s := lineUp .coverStop .edge
    (live.input 0).settling = false ∧ (s.input 0).settling = true ∧ (s.input 0).latch = none ∧
    s.inputRec 0 = some (input0 .coverStop .edge) ∧ s.inputRec 1 = none ∧ s.upstream.length < 64 ∧
    (s.coverRec 0).isSome = true ∧ ((withCover { Cover.blank with state := .closing } s).cover 0).moving = true ∧
    ((after (exec (.debouncedTransition 0) (withCover { Cover.blank with state := .closing } s))).cover 0).haltReason =
      some .stopped ∧
    (after (exec (.debouncedTransition 0) (lineUp .plantTrip .edgeAndLevel))).effectiveCapacity = 0 ∧
    (after (exec (.debouncedTransition 0) (lineUp .requestNight .edge))).mode = some .night ∧
    (after (exec (.debouncedTransition 0) (lineUp .noticeOnly .edge))).latched.input = true ∧
    ((after (exec (.inputLineChange 0 .low) s)).input 0).settling = false := by decide +kernel

theorem test_meets_EvacuateLighting :
    let s := lineUp .evacuate .edge
    let second := s.setInput 7 { s.input 7 with latch := some .evacuate }
    let t := after (exec (.debouncedTransition 0) s)
    (second.input 7).latch = some .evacuate ∧ (∀ j, (s.input j).latch ≠ some .evacuate) ∧
    s.point (pt 7) = some (actuator 7 .lamp .lighting 1000) ∧ s.lamp (pt 7) = some Lamp.dark ∧ s.supply 0 = some Supply.start ∧
    s.supplyPoints 0 = [pt 8] ∧ s.lamp (pt 8) = none ∧ (s.points.map (·.id)).Nodup ∧
    t.lamp (pt 7) = some { Lamp.dark with target := 1000 } ∧ t.supplyState 0 = some .on ∧
    (t.segment 0).queue.map (fun e => (e.point.chan, e.value)) = [(8, 1), (7, 1000)] ∧
    (after (exec (.debouncedTransition 0) second)).lamp (pt 7) = some Lamp.dark := by decide +kernel

/-- The halts of an EVACUATE latch, and a lamp in mid-fade to 1000 that keeps its record (log 61). -/
theorem test_meets_EvacuateHalts :
    let fading : Lamp := { Lamp.dark with target := 1000, fade := 50, elapsed := 10 }
    let s := { withCover { Cover.blank with state := .opening, travel := dueTimer } (lineUp .evacuate .edge) with
      lamps := [⟨pt 7, fading⟩] }
    let t := after (exec (.debouncedTransition 0) s)
    s.coverRec 0 = some cover0 ∧ (s.cover 0).moving = true ∧ s.upstream.length < 58 ∧ s.lamp (pt 7) = some fading ∧
    (s.lamps.map (·.id)).Nodup ∧ t.lamp (pt 7) = some fading ∧ (t.cover 0).haltReason = some .stopped ∧
    (t.cover 0).travel.running = false ∧ hasNotice t .coverEvent 0 6 0 1 ∧ ⟨pt 5, 0, 0, .cover, 0⟩ ∈ (t.segment 0).queue := by
  simp only [hasNotice]; decide +kernel

/-! ### Run states with latches, covers and supplies -/

def activeLine (a : Option Action) : InputLine := { level := .high, settling := false, debounced := .high, latch := a }

/-- What a queue of segment A holds of the SETs to node 4. -/
def queued (s : State) : List (Nat × Int × Owner) := (s.segment 0).queue.map fun e => (e.point.chan, e.value, e.origin)

/-- BYPASS with node 4 PRESENT, bank 0 READY with an EDGE_AND_LEVEL input, and its line active. -/
def poised (a : Action) : State :=
  { ready with
    banks := #v[{ state := .ready, records := recordsWith (input0 a .edgeAndLevel) }, Bank.blank]
    segs := live.segs, inputs := ready.inputs.set 0 (activeLine none) }

theorem test_meets_GoWithHeldInputs :
    let started (a : Action) := after (exec (.go hdr 0) (poised a))
    (poised .plantTrip).tx = .hunting ∧ (poised .plantTrip).runState = .bypass ∧ ((poised .plantTrip).bank 0).state = .ready ∧
    (poised .plantTrip).mode = none ∧ (poised .plantTrip).upstream.length < 56 ∧
    ((started .plantTrip).input 0).latch = some .plantTrip ∧ (started .plantTrip).latched.input = true ∧
    hasNotice (started .plantTrip) .inputLatched 0 Action.plantTrip.code 1 1 ∧
    (started .plantTrip).lamps = [⟨pt 7, Lamp.dark⟩] ∧ (started .plantTrip).supply 0 = some Supply.start ∧
    (started .plantTrip).supply 1 = none ∧ queued (started .plantTrip) = [(9, 0, .climate)] ∧
    (started .evacuate).lamps = [⟨pt 7, { Lamp.dark with target := 1000 }⟩] ∧
    (started .evacuate).supply 0 = some { Supply.start with state := .on } ∧
    queued (started .evacuate) = [(8, 1, .lighting), (7, 1000, .lighting), (9, 0, .climate)] ∧
    (started .evacuate).zone 0 = (started .evacuate).startedZone 0 ∧ (started .evacuate).zone 1 = Zone.start ∧
    ((started .evacuate).zone 0).occupied = true ∧ (started .evacuate).mode = some .staffed ∧
    (after (exec (.go hdr 0) { poised .evacuate with upstream := fullQueue.take 55 })).upstream.length = 57 ∧
    (records0.map (·.number)).Nodup ∧ ((pointsIn (recordsWith (input0 .evacuate .edgeAndLevel))).map (·.id)).Nodup ∧
    ((after (exec (.go hdr 0) ready)).status (pt 9)).resend = true ∧
    (after (exec (.go hdr 0) ready)).nodePresent (pt 9) = false := by
  simp only [hasNotice]; decide +kernel

/-- The point strip of GO: lawful banks before it, a lamp at strip 95, and one on the strip. -/
theorem test_meets_GoStrip : (poised .evacuate).banksLawful ∧
    (stripOf [⟨0, .point { actuator 7 .lamp .lighting 1000 with strip := 95 }⟩]).map (·.id) = [pt 7] ∧
    stripOf [⟨0, .point { actuator 7 .lamp .station 1000 with strip := 95 }⟩] = [] := by
  refine ⟨⟨?_, ?_, ?_, fun l h => ?_, ?_, ?_⟩, ?_, ?_⟩
  all_goals try decide +kernel
  cases h

/-- NIGHT with a full link: entries in every queue, conditions latched, counts, a held PLANT_TRIP, six moving covers of which
two purge, a supply that waits for its point and a lamp that waits for the supply. -/
def busy : State :=
  let s := powering [pt 8] ((queueing eight (runningWith levelRecords)).setInput 0 (activeLine (some .plantTrip)))
  { s with
    mode := some .night, upstream := fullQueue, overrun := 3, clamps := 2, trunkCrc := 7, protocolError := true
    noticeSeq := 255, echoes := pendingOn 32
    latched := { Latched.none with input := true, condensation := true, queueOverrun := true, coverFault := true }
    covers := (Vector.replicate 6 { Cover.blank with state := .closing, travel := fullMinute }).set 0
      { Cover.blank with state := .closing, travel := fullMinute, purge := .running } |>.set 1
      { Cover.blank with state := .opening, purge := .running } }

/-- Nothing of a full link reaches the state after CLEAR, in BYPASS and outside it (R189). -/
theorem test_meets_ClearEmpties : emptied busy busy.clearLink ∧ after (exec (.clear hdr) busy) = after (exec (.clear hdr) busy.clearLink) ∧
    (let s := { ready with upstream := fullQueue, latched := busy.latched, overrun := 3, segs := busy.segs }
     emptied s s.clearLink ∧ after (exec (.clear hdr) s) = s.clearLink.reply hdr false (.ok [])) := by
  refine ⟨⟨rfl, ?_⟩, ?_, ⟨rfl, ?_⟩, ?_⟩
  all_goals decide +kernel

theorem test_meets_ClearRestarts :
    let t := after (exec (.clear hdr) busy)
    busy.runState ≠ .bypass ∧ busy.levelHeld 0 = true ∧ busy.mode = some .night ∧
    t.upstream = [.notice ⟨.modeChanged, 7, 1, 2, 255⟩, .notice ⟨.inputLatched, 0, Action.plantTrip.code, 1, 0⟩] ∧
    t.noticeSeq = 1 ∧ t.latched = { Latched.none with input := true } ∧ t.overrun = 0 ∧ t.echoes = [] ∧
    (busy.points.map (·.id)).Nodup ∧ (busy.lamps.map (·.id)).Nodup ∧
    (allCovers.filter fun c => (busy.cover c).moving).length + (allCovers.filter fun c => (busy.cover c).purging).length = 8 ∧
    busy.point (pt 5) = some (actuator 5 .coverDrive .cover 2) ∧ busy.point (pt 6) = some (actuator 6 .purgeFan .cover 1) ∧
    busy.lamp (pt 5) = none ∧ busy.lamp (pt 6) = none ∧ busy.lamp (pt 8) = none ∧ busy.nodePresent (pt 5) = true ∧
    busy.supply 0 = some ⟨.powering, [pt 8], Timer.idle⟩ ∧ busy.supplyPoints 0 = [pt 8] ∧ busy.supply 1 = none ∧
    t.supply 0 = busy.supply 0 ∧ t.lamps = busy.lamps ∧ t.queueFull (pt 8) = false ∧
    queued t = [(5, 0, .cover), (6, 0, .cover), (8, 1, .lighting), (9, 0, .climate)] ∧
    t.zone 0 = t.startedZone 0 ∧ t.zone 1 = Zone.start ∧ (t.cover 0).state = .opened ∧ t.cover 1 = Cover.blank := by
  decide +kernel

/-- With its node LOST, the supply that waits is released: its deferred lamp is sent its target; with no demand it is
STOPPING, under an EVACUATE latch ON; one that does not wait is kept (R158, R165). -/
theorem test_meets_ClearReleases :
    let run (s : State) := after (exec (.clear hdr) s)
    let lone := away (powering [pt 8] live)
    (powering [pt 8] live).nodePresent (pt 8) = true ∧ lone.nodePresent (pt 8) = false ∧ lone.demand 0 = true ∧
    (run lone).supply 0 = some ⟨.on, [], Timer.idle⟩ ∧
    (run lone).lamp (pt 7) = some { deferredLamp with deferred := false, elapsed := 0 } ∧
    ((run lone).status (pt 7)).resend = true ∧ ((run lone).status (pt 8)).resend = true ∧
    ({ lone with lamps := [] }).demand 0 = false ∧
    (run { lone with lamps := [] }).supply 0 = some ⟨.stopping, [], Timer.idle.start ⟨1, 61⟩⟩ ∧
    (run (withLatch .evacuate { lone with lamps := [] })).supply 0 = some ⟨.on, [], Timer.idle⟩ ∧
    (run (supplyAt .stopping dueTimer live)).supply 0 = some ⟨.stopping, [], dueTimer⟩ ∧
    (run (powering [] live)).supply 0 = some ⟨.powering, [], Timer.idle⟩ := by
  decide +kernel

/-- A held EVACUATE that was not latched takes the evacuation start; one that was latched does not. -/
theorem test_meets_ClearEvacuates :
    let held (a : Option Action) := (runningWith (recordsWith (input0 .evacuate .edgeAndLevel))).setInput 0 (activeLine a)
    let run (a : Option Action) := after (exec (.clear hdr) (held a))
    (∀ i, ((held none).input i).latch ≠ some .evacuate) ∧ (held none).levelHeld 0 = true ∧
    ((run none).lamp (pt 7)).map (·.target) = some 1000 ∧ (run none).supplyState 0 = some .on ∧
    queued (run none) = [(8, 1, .lighting), (7, 1000, .lighting), (9, 0, .climate)] ∧
    ((held (some .evacuate)).input 0).latch = some .evacuate ∧ (run (some .evacuate)).lamps = (held (some .evacuate)).lamps ∧
    queued (run (some .evacuate)) = [(9, 0, .climate)] := by decide +kernel

/-! ### Resyncs and retargets -/

/-- Trunk silence with an override on: the point that allows override has its current output again, and no other. -/
theorem test_meets_SilenceResyncs :
    let s := { overridden.setZone 0 { overridden.zone 0 with lastValve := some 320 } with silence := dueTimer }
    s.timerDue .trunkSilence = true ∧ s.runState = .running ∧ (s.zone 0).override = true ∧ (s.zone 1).override = false ∧
    (s.points.filter fun d => d.override = true ∧ d.zone = some 0 ∧ d.owner.isSome = true ∧ d.owner ≠ some .station) = [heat] ∧
    queued (after (exec .trunkSilenceExpiry s)) = [(9, 320, .climate)] ∧
    ((after (exec .trunkSilenceExpiry s)).zone 0).override = false ∧
    (after (exec .trunkSilenceExpiry s)).runState = .autonomous := by decide +kernel

/-! The resync of each kind of point, and each of its cases (R61, R110, R136, R160). -/

theorem test_meets_ClimateResyncs :
    let sent := live.setZone 0 { live.zone 0 with lastValve := some 320 }
    live.point (pt 9) = some heat ∧ (statusIn live.table (pt 9)).isSome = true ∧ heat.owner = some .climate ∧
    live.point (pt 10) = some (actuator 10 .generic .station 500) ∧ ((live.resync (pt 10)).status (pt 10)).resend = true ∧
    live.mode ≠ some .dormant ∧ (sent.zone 0).lastSent .heatValve = some 320 ∧ (live.zone 0).lastSent .heatValve = none ∧
    queued (sent.resync (pt 9)) = [(9, 320, .climate)] ∧ queued (live.resync (pt 9)) = [] ∧
    ((live.resync (pt 9)).status (pt 9)).resend = true ∧
    queued ({ sent with mode := some .dormant }.resync (pt 9)) = [(9, 0, .climate)] ∧
    ((away sent).resync (pt 9) |>.status (pt 9)).resend = true := by decide +kernel

theorem test_meets_CoverResyncs :
    let at' (v : CoverState) (ok : Bool) := withCover { Cover.blank with state := v, valid := ok } live
    live.coverAtOutput (pt 5) = some (0, cover0) ∧ live.coverAtOutput (pt 6) = some (0, cover0) ∧
    queued ((at' .closing false).resync (pt 5)) = [(5, 1, .cover)] ∧ queued ((at' .opening true).resync (pt 5)) = [(5, 2, .cover)] ∧
    queued ((at' .opening false).resync (pt 5)) = [] ∧ queued ((at' .closed false).resync (pt 5)) = [(5, 0, .cover)] ∧
    queued ((withCover { closedCover with purge := .running } live).resync (pt 6)) = [(6, 1, .cover)] ∧
    queued (live.resync (pt 6)) = [(6, 0, .cover)] := by decide +kernel

theorem test_meets_LightingResyncs :
    let lamp (l : Lamp) (x : SupplyState) : State := supplyAt x Timer.idle { live with lamps := [⟨pt 7, l⟩] }
    let fading : Lamp := { Lamp.dark with target := 700, fade := 50, elapsed := 20 }
    live.lamp (pt 8) = none ∧
    queued ((supplyAt .off Timer.idle live).resync (pt 8)) = [(8, 0, .lighting)] ∧
    queued ((supplyAt .stopping Timer.idle live).resync (pt 8)) = [(8, 1, .lighting)] ∧
    (((lamp fading .on).resync (pt 7)).segment 0).queue = [⟨pt 7, 700, 30, .lighting, 0⟩] ∧
    queued ((lamp fading .powering).resync (pt 7)) = [] ∧
    queued ((lamp { fading with target := 0 } .powering).resync (pt 7)) = [(7, 0, .lighting)] ∧
    queued ((lamp { fading with deferred := true } .on).resync (pt 7)) = [] := by decide +kernel

/-- The last command of a point as a HELD OWNED shows it, with and without an origin and an echo (R191). -/
theorem test_meets_HeldBody :
    heldBody { PointStatus.unknown with commanded := some 320, origin := some .cover, status := some .applied, value := -1 } =
      [0, 0, 1, 64, 2, 255, 255, 255, 255] ∧
    heldBody { PointStatus.unknown with value := 5 } = [0, 0, 0, 0, 255, 0, 0, 0, 0] := by decide +kernel

/-- The lamp of zone 0 goes to 800 when its source's loop is retargeted, and to 0 when nothing plays. -/
def rising : State := { playingLit with lamps := [⟨pt 7, Lamp.dark⟩] }

/-- Steps 2 and 3 of R148: the examination in each supply state, and the lamp's SET sent or deferred. -/
theorem test_meets_RetargetSupplies :
    let run (x : SupplyState) (s : State) := (supplyAt x Timer.idle s).retarget (fun _ => true) []
    let on := Timer.idle.start live.hall.supplyOff
    let flagged (c : Nat) (s : State) := withStatus c (fun st => { st with resend := true }) s
    (rising.points.map (·.id)).Nodup ∧ (rising.governing (actuator 7 .lamp .lighting 1000)) = (800, 50) ∧
    (run .off rising).demand 0 = true ∧ (run .off rising).supply 0 = some ⟨.powering, [pt 8], Timer.idle⟩ ∧
    queued (run .off rising) = [(8, 1, .lighting)] ∧ ((run .off rising).lamp (pt 7)).map (·.deferred) = some true ∧
    (run .off (away rising)).supply 0 = some ⟨.on, [], Timer.idle⟩ ∧
    ((run .off (away rising)).status (pt 7)).resend = true ∧ ((run .off (away rising)).status (pt 8)).resend = true ∧
    ((run .stopping rising).supplyState 0 = some .on ∧
      ((run .stopping rising).segment 0).queue = [⟨pt 7, 800, 50, .lighting, 0⟩]) ∧
    ((run .on live).supply 0 = some ⟨.stopping, [], on⟩ ∧ queued (run .on live) = []) ∧
    ((run .off live).supply 0 = some Supply.start ∧ (run .stopping live).supply 0 = some ⟨.stopping, [], Timer.idle⟩) ∧
    (run .on (withLatch .evacuate live)).supplyState 0 = some .on ∧ (run .on rising).supply 0 = some ⟨.on, [], Timer.idle⟩ ∧
    (run .powering rising).supply 0 = some ⟨.powering, [], Timer.idle⟩ ∧ (rising.status (pt 8)).resend = false ∧
    queued (run .stopping (flagged 8 rising)) = [(7, 800, .lighting), (8, 1, .lighting)] ∧
    queued (run .off (flagged 8 live)) = [(8, 0, .lighting)] ∧
    queued ((flagged 7 (supplyAt .on Timer.idle lit)).retarget (fun _ => true) [] ) = [(7, 0, .lighting)] ∧
    queued ((flagged 7 live).retarget (fun _ => true) []) = [(7, 0, .lighting)] ∧
    (rising.retarget (fun _ => false) []) = rising ∧
    (let away' := away (flagged 8 (powering [pt 8] playingLit))
     let same := { away' with lamps := [⟨pt 7, { deferredLamp with target := 800 }⟩] }
     (same.retarget (fun _ => true) []).supply 0 = some ⟨.on, [], Timer.idle⟩ ∧
     (same.retarget (fun _ => true) []).lamp (pt 7) = some { deferredLamp with target := 800, deferred := false, elapsed := 0 }) := by
  decide +kernel

theorem test_meets_SplitRetargets :
    let t := after (exec (.splitPosition 1 0) { playingLit with sourceB := Source.stopped })
    (t.segment 0).queue = [⟨pt 7, 0, 50, .lighting, 0⟩] ∧ t.supplyState 0 = some .stopping ∧
    (after (exec (.splitPosition 1 96) playingLit)).segs = playingLit.segs := by decide +kernel

/-- The SET 2 of the drive at the start of a pending open, with the fan's SET 0. -/
theorem test_meets_PendingOpenSets :
    let t := after (exec (.purgeDurationExpiry 0) (withCover { running1 with openPending := true } lit))
    lit.point cover0.drive = some (actuator 5 .coverDrive .cover 2) ∧ cover0.fan ≠ cover0.drive ∧
    (statusIn lit.table cover0.drive).isSome = true ∧ (t.cover 0).state = .opening ∧
    (queued t).Perm [(6, 0, .cover), (5, 2, .cover)] := by decide +kernel

theorem test_meets_DormantRetargets :
    (after (exec (.modeRequest 1 3) lit)).supplyState 0 = some .stopping ∧
    queued (after (exec (.modeRequest 1 3) lit)) = [(9, 0, .climate), (7, 0, .lighting)] := by decide +kernel

theorem test_meets_RetargetStrip : rising.stripLawful ∧ (rising.lamp (pt 7)).isSome = true ∧
    (statusIn rising.table (pt 7)).isSome = true ∧ deferredLamp.deferred = true ∧ Lamp.dark.deferred = false := by
  refine ⟨⟨by decide +kernel, fun r hr => ?_⟩, by decide +kernel⟩
  have h : rising.lamps = [⟨pt 7, Lamp.dark⟩] := rfl
  rw [h, List.mem_singleton] at hr
  subst hr
  exact ⟨actuator 7 .lamp .lighting 1000, by decide +kernel, rfl, rfl⟩

/-! ### Invariants -/

/-- The running part keeps the queues' bounds and shares out its plant; the part after reset meets every invariant
(stated by PowerOnGivesFreshPart). -/
theorem test_meets_Invariants : live.queuesInBounds ∧ live.grantSum ≤ live.effectiveCapacity ∧
    live.priority.Perm allZones ∧ live.stripLawful := by
  refine ⟨?_, ?_, List.Perm.refl _, ⟨by decide +kernel, fun r hr => ?_⟩⟩
  · unfold State.queuesInBounds; decide +kernel
  · decide +kernel
  · have h : live.lamps = [⟨pt 7, Lamp.dark⟩] := rfl
    rw [h, List.mem_singleton] at hr
    subst hr
    exact ⟨actuator 7 .lamp .lighting 1000, by decide +kernel, rfl, rfl⟩

theorem test_meets_Invariants_atReset : State.reset.banksLawful ∧ State.reset.bypassQuiet ∧ State.reset.plantLawful ∧
    State.reset.dormantQuiet := by
  refine ⟨⟨by decide, by decide, by decide, ?_, by decide, by decide⟩, ?_, ⟨by decide, by decide, ?_, ?_⟩, ?_⟩
  · intro l hl; cases hl
  · intro _; refine ⟨rfl, rfl, by decide, by decide, rfl, rfl, rfl, by decide, rfl, rfl, rfl, rfl, ?_, by decide⟩
    intro src; cases src <;> decide
  · intro h; exact absurd rfl h
  · intro b r hr
    have h : ∀ b, (State.reset.bank b).records = [] := by decide
    rw [h b] at hr; cases hr
  · intro h; cases h

/-- A hall in DORMANT that nothing bars, with lawful banks, and a plant with a grant, within the bounds. -/
theorem test_meets_Invariants_inUse : ({ lit with mode := some .dormant } : State).dormantQuiet ∧
    ({ lit with mode := some .dormant } : State).banksLawful ∧
    (∀ z, (sharing.allocate.zone z).grant ≤ (sharing.allocate.zone z).request) ∧ (sharing.allocate.zone 2).grant ≠ 0 := by
  refine ⟨?_, ⟨?_, ?_, ?_, fun l h => ?_, ?_, ?_⟩, ?_, ?_⟩
  · unfold State.dormantQuiet; decide +kernel
  · decide +kernel
  · decide +kernel
  · decide +kernel
  · cases h
  all_goals decide +kernel

theorem test_power_on : (after (exec (.powerOn 15 0x81) live)).trunkAddr = 16 ∧
    ((after (exec (.powerOn 15 0x81) live)).input 7).debounced = .high ∧
    ((after (exec (.powerOn 15 0x81) live)).input 6).debounced = .low ∧
    (after (exec (.powerOn 15 0x81) live)).runState = .bypass := by decide +kernel

end Sys2Proof.Tests
end

section
/-! SUPPORT. The cross-record checks of Table 1-4: what each scan of a bank's records finds, and the first check that fails. -/

namespace Sys2Proof.Machine

/-! ### What a check names, R10 -/

/-- A scan of `rs` for the limit `P` answers the number of the record that first takes the records over it, or none when
all of them are within it. -/
def NamesFirst (P : List Stored → Prop) (rs : List Stored) (c : Option Int) : Prop :=
  (c = none ∧ P rs) ∨ ∃ before x after, rs = before ++ x :: after ∧ P before ∧ ¬ P (before ++ [x]) ∧ c = some x.number

/-- Check `n` fails with `r`: the number of the record that first takes it over, or -1 where only a record is missing. -/
def FailsWith (rs : List Stored) (n : Nat) (r : Int) : Prop :=
  (r = -1 ∧ checkHolds rs n rs ∧ ¬ checkPasses rs n) ∨
    ∃ k : Fin rs.length,
      checkHolds rs n (rs.take k.val) ∧ ¬ checkHolds rs n (rs.take (k.val + 1)) ∧ r = rs[k].number

/-- An entry of `crossChecks` answers check `n`. -/
def Decides (rs : List Stored) (n : Nat) (c : Option Int) : Prop :=
  (c = none ∧ checkPasses rs n) ∨ ∃ r, c = some r ∧ FailsWith rs n r

/-- Fewer records break no check. -/
theorem checkHolds_sublist {rs l m : List Stored} (h : l.Sublist m) (n : Nat) (hm : checkHolds rs n m) :
    checkHolds rs n l := by
  have hp : (pointsIn l).Sublist (pointsIn m) := h.filterMap _
  match n with
  | 1 | 2 => exact Nat.le_trans (h.filter _).length_le hm
  | 3 => exact hm.sublist (hp.map _)
  | 4 => exact hm.sublist ((hp.filter _).map _)
  | 5 => exact hm.sublist (h.filterMap _)
  | 6 => exact fun q z => Nat.le_trans (hp.filter _).length_le (hm q z)
  | 7 | 8 | 9 | 10 => exact fun x hx => hm x (h.subset hx)
  | 0 | _ + 11 => trivial

theorem checkPasses_iff_holds {rs : List Stored} {n : Nat} (hn : 2 < n) : checkPasses rs n ↔ checkHolds rs n rs := by
  have h1 : n ≠ 1 := by omega
  have h2 : n ≠ 2 := by omega
  simp [checkPasses, h1, h2]

/-- A check that breaks within the first records breaks on all of them. -/
theorem checkHolds_take {rs : List Stored} {n i j : Nat} (hij : i ≤ j) (h : checkHolds rs n (rs.take j)) :
    checkHolds rs n (rs.take i) :=
  checkHolds_sublist (List.take_sublist_take_left hij) n h

theorem FailsWith.not_passes {rs : List Stored} {n : Nat} {r : Int} (h : FailsWith rs n r) : ¬ checkPasses rs n := by
  rcases h with ⟨-, -, hnot⟩ | ⟨k, -, hover, -⟩
  · exact hnot
  · exact fun hp => hover (checkHolds_sublist (List.take_sublist _ _) n hp.1)

theorem FailsWith.unique {rs : List Stored} {n : Nat} {r r' : Int} (h : FailsWith rs n r) (h' : FailsWith rs n r') :
    r = r' := by
  have whole (k : Fin rs.length) (hover : ¬ checkHolds rs n (rs.take (k.val + 1))) : ¬ checkHolds rs n rs :=
    fun hall => hover (checkHolds_sublist (List.take_sublist _ _) n hall)
  rcases h with ⟨rfl, hall, -⟩ | ⟨k, hk, hover, rfl⟩ <;> rcases h' with ⟨rfl, hall', -⟩ | ⟨k', hk', hover', rfl⟩
  · rfl
  · exact absurd hall (whole k' hover')
  · exact absurd hall' (whole k hover)
  · have hle : k.val ≤ k'.val := Nat.le_of_not_lt fun hlt => hover' (checkHolds_take hlt hk)
    have hge : k'.val ≤ k.val := Nat.le_of_not_lt fun hlt => hover (checkHolds_take hlt hk')
    rw [show k = k' from Fin.ext (Nat.le_antisymm hle hge)]

theorem Decides.eq_none_iff {rs : List Stored} {n : Nat} {c : Option Int} (h : Decides rs n c) :
    c = none ↔ checkPasses rs n := by
  rcases h with ⟨rfl, hp⟩ | ⟨r, rfl, hr⟩
  · simp [hp]
  · simp [hr.not_passes]

theorem Decides.eq_some_iff {rs : List Stored} {n : Nat} {c : Option Int} (h : Decides rs n c) (r : Int) :
    c = some r ↔ FailsWith rs n r := by
  rcases h with ⟨rfl, hp⟩ | ⟨r', rfl, hr'⟩
  · simpa using fun hr : FailsWith rs n r => hr.not_passes hp
  · exact ⟨fun h => Option.some.inj h ▸ hr', fun hr => congrArg some (hr'.unique hr)⟩

theorem NamesFirst.within {P : List Stored → Prop} {rs : List Stored} {c : Option Int} (h : NamesFirst P rs c)
    (hc : c = none) : P rs := by
  rcases h with ⟨-, hall⟩ | ⟨_, _, _, -, -, -, hc'⟩
  · exact hall
  · cases hc.symm.trans hc'

/-- What a scan names is the record that FailsWith asks for. -/
theorem NamesFirst.decides {rs : List Stored} {n : Nat} {c : Option Int} (h : NamesFirst (checkHolds rs n) rs c)
    (hp : c = none → checkPasses rs n) : Decides rs n c := by
  rcases h with ⟨hc, -⟩ | ⟨before, x, after, hrs, hb, hx, hc⟩
  · exact .inl ⟨hc, hp hc⟩
  · have hlen : before.length < rs.length := by simp [hrs]
    refine .inr ⟨x.number, hc, .inr ⟨⟨before.length, hlen⟩, ?_, ?_, ?_⟩⟩
    · simpa [hrs] using hb
    · simpa [hrs, List.take_append, List.take_of_length_le] using hx
    · simp [hrs]

/-- A scan for what a check from 3 on holds decides it. -/
theorem NamesFirst.decides_of_iff {rs : List Stored} {n : Nat} {c : Option Int} {P : List Stored → Prop}
    (h : NamesFirst P rs c) (hP : ∀ l, checkHolds rs n l ↔ P l) (hn : 2 < n) : Decides rs n c := by
  obtain rfl : checkHolds rs n = P := funext fun l => propext (hP l)
  exact h.decides fun hc => (checkPasses_iff_holds hn).2 (h.within hc)

/-! ### The scans -/

/-- No key stands more often than `limit` among the records. -/
def keysWithin {κ : Type} [DecidableEq κ] (key : Record → Option κ) (limit : Nat) (l : List Stored) : Prop :=
  ∀ k, (l.filterMap fun x => key x.record).count k ≤ limit

theorem firstRepeat_names {κ : Type} [DecidableEq κ] (key : Record → Option κ) (limit : Nat) (rest before : List Stored)
    (h : keysWithin key limit before) :
    NamesFirst (keysWithin key limit) (before ++ rest)
      (firstRepeat key limit (before.filterMap fun x => key x.record) rest) := by
  induction rest generalizing before with
  | nil => exact .inl ⟨rfl, by rwa [List.append_nil]⟩
  | cons x rest ih =>
    have next (hx : keysWithin key limit (before ++ [x])) := ih _ hx
    simp only [keysWithin, List.append_assoc, List.singleton_append, List.filterMap_append, List.filterMap_cons,
      List.filterMap_nil] at next
    unfold firstRepeat
    cases hk : key x.record with
    | none => simpa [hk, keysWithin] using next (by simpa [keysWithin, hk] using h)
    | some k =>
      by_cases hfull : limit ≤ (before.filterMap fun x => key x.record).count k
      · refine .inr ⟨before, x, rest, rfl, h, fun hx => ?_, by simp [hfull]⟩
        have := hx k
        simp [hk] at this
        omega
      · have hx : keysWithin key limit (before ++ [x]) := by
          intro k'
          have := h k'
          by_cases hkk : k = k'
          · subst hkk
            simp [hk]
            omega
          · simpa [hk, List.count_singleton, hkk] using this
        have := ih _ hx
        simpa [hfull, hk] using this

theorem firstBad_names (bad : Record → Bool) (rs : List Stored) :
    NamesFirst (fun l => ∀ x ∈ l, bad x.record = false) rs (firstBad bad rs) := by
  unfold firstBad
  cases h : rs.find? fun x => bad x.record with
  | none => exact .inl ⟨rfl, by simpa using h⟩
  | some x =>
    obtain ⟨hx, before, after, rfl, hb⟩ := List.find?_eq_some_iff_append.1 h
    exact .inr ⟨before, x, after, rfl, by simpa using hb, by simp [hx], rfl⟩

/-- Checks 1 and 2: the second record of the kind is named, or none where there is no first. -/
theorem exactlyOne_cases (isKind : Record → Bool) (rs : List Stored) :
    (exactlyOne isKind rs = some (-1) ∧ ∀ x ∈ rs, isKind x.record = false) ∨
    (NamesFirst (fun l => (l.filter fun x => isKind x.record).length ≤ 1) rs (exactlyOne isKind rs) ∧
      ∃ x ∈ rs, isKind x.record = true) := by
  unfold exactlyOne
  split
  case h_1 h => exact .inl ⟨rfl, by simpa using h⟩
  case h_2 x h =>
    have hx : x ∈ rs.filter fun r => isKind r.record := by simp [h]
    exact .inr ⟨.inl ⟨rfl, by simp [h]⟩, x, List.mem_filter.1 hx⟩
  case h_3 x y more h =>
    have hx : x ∈ rs.filter fun r => isKind r.record := by simp [h]
    refine .inr ⟨.inr ?_, x, List.mem_filter.1 hx⟩
    obtain ⟨front, back, rfl, hfront, hkx, hback⟩ := List.filter_eq_cons_iff.1 h
    obtain ⟨middle, after, rfl, hmiddle, hky, -⟩ := List.filter_eq_cons_iff.1 hback
    have hf : front.filter (fun r => isKind r.record) = [] := List.filter_eq_nil_iff.2 hfront
    have hm : middle.filter (fun r => isKind r.record) = [] := List.filter_eq_nil_iff.2 hmiddle
    exact ⟨front ++ x :: middle, y, after, by simp, by simp [hf, hm, hkx], by simp [hf, hm, hkx, hky], rfl⟩

/-! ### The limits of Table 1-4 -/

/-- A key that points alone have is read from the point definitions. -/
theorem filterMap_pointsIn {κ : Type} (key : Record → Option κ) (hother : ∀ r, (∀ d, r ≠ .point d) → key r = none)
    (l : List Stored) : (pointsIn l).filterMap (fun d => key (.point d)) = l.filterMap fun x => key x.record := by
  rw [pointsIn, List.filterMap_filterMap]
  congr 1
  funext x
  cases x.record with
  | point d => rfl
  | _ => simp [hother]

theorem keysWithin_one_iff {κ : Type} [DecidableEq κ] {key : Record → Option κ} {l : List Stored} :
    keysWithin key 1 l ↔ (l.filterMap fun x => key x.record).Nodup :=
  List.nodup_iff_count.symm

theorem checkHolds_identities (rs l : List Stored) : checkHolds rs 3 l ↔ keysWithin Record.pointKey 1 l := by
  have hkeys : (pointsIn l).filterMap (fun d => some d.id) = l.filterMap fun x => x.record.pointKey :=
    filterMap_pointsIn Record.pointKey (fun r hr => by cases r <;> simp_all [Record.pointKey]) l
  rw [keysWithin_one_iff, ← hkeys, List.filterMap_eq_map']
  rfl

theorem checkHolds_strip (rs l : List Stored) : checkHolds rs 4 l ↔ keysWithin Record.stripKey 1 l := by
  have hkeys : (pointsIn l).filterMap (fun d => if d.onStrip then some d.strip else none) =
      l.filterMap fun x => x.record.stripKey :=
    filterMap_pointsIn Record.stripKey (fun r hr => by cases r <;> simp_all [Record.stripKey]) l
  have hmap : (pointsIn l).filterMap (fun d => if d.onStrip then some d.strip else none) =
      ((pointsIn l).filter PointDef.onStrip).map (·.strip) := by
    rw [← List.filterMap_eq_map, ← List.filterMap_eq_filter, List.filterMap_filterMap]
    congr 1
    funext d
    cases h : d.onStrip <;> simp [Option.guard, h]
  rw [keysWithin_one_iff, ← hkeys, hmap]
  rfl

/-- The kind numbers of `indexKey` from those that check 5 is stated with. -/
def nextKind (k : Nat × Nat) : Nat × Nat := (k.1 + 1, k.2)

theorem nextKind_inj (a b : Nat × Nat) : nextKind a = nextKind b ↔ a = b := by
  obtain ⟨a₁, a₂⟩ := a
  obtain ⟨b₁, b₂⟩ := b
  simp only [nextKind, Prod.mk.injEq, Nat.add_right_cancel_iff]

/-- Kinds numbered from 0 and from 1 repeat alike. -/
theorem nodup_filterMap_nextKind {f : Stored → Option (Nat × Nat)} {key : Record → Option (Nat × Nat)}
    (h : ∀ x, key x.record = (f x).map nextKind) (l : List Stored) :
    (l.filterMap f).Nodup ↔ (l.filterMap fun x => key x.record).Nodup := by
  simp only [h]
  rw [← List.map_filterMap, List.nodup_iff_pairwise_ne, List.nodup_iff_pairwise_ne, List.pairwise_map]
  simp only [ne_eq, nextKind_inj]

theorem checkHolds_indices (rs l : List Stored) : checkHolds rs 5 l ↔ keysWithin Record.indexKey 1 l := by
  rw [keysWithin_one_iff]
  exact nodup_filterMap_nextKind (fun x => by cases x.record <;> rfl) l

theorem count_filterMap_eq_length {α κ : Type} [DecidableEq κ] (f : α → Option κ) (k : κ) (l : List α) :
    (l.filterMap f).count k = (l.filter fun x => f x = some k).length := by
  rw [List.count_filterMap, List.countP_eq_length_filter]
  refine congrArg List.length (List.filter_congr fun x _ => ?_)
  rw [Bool.eq_iff_iff, beq_iff_eq, decide_eq_true_iff]

theorem checkHolds_quantities (rs l : List Stored) : checkHolds rs 6 l ↔ keysWithin Record.quantityKey 4 l := by
  have hkeys : (pointsIn l).filterMap (fun d => Record.quantityKey (.point d)) =
      l.filterMap fun x => x.record.quantityKey :=
    filterMap_pointsIn Record.quantityKey (fun r hr => by cases r <;> simp_all [Record.quantityKey]) l
  rw [keysWithin, Prod.forall]
  refine forall₂_congr fun q z => ?_
  have hkey (d : PointDef) : Record.quantityKey (.point d) = some (q, z) ↔ d.role = .sensor q ∧ d.zone = z := by
    cases h : d.role <;> simp [Record.quantityKey, h]
  simp only [← hkeys, count_filterMap_eq_length, hkey]

theorem coverPoint_iff (rs : List Stored) (r : CoverRec) (role : Role) (id : PointId) :
    coverPoint rs r role id = true ↔
      ∃ d, pointIn rs id = some d ∧ d.role = role ∧ d.coverNo = r.index.val ∧ d.zone = some r.zoneNo := by
  unfold coverPoint
  cases pointIn rs id <;> simp

theorem checkHolds_covers (rs l : List Stored) : checkHolds rs 7 l ↔ ∀ x ∈ l, badCover rs x.record = false := by
  refine forall₂_congr fun x _ => ?_
  cases x.record with
  | cover r => cases hu : r.inUse <;> simp [badCover, hu, coverPoint_iff, and_assoc]
  | _ => simp [badCover]

theorem checkHolds_plant (rs l : List Stored) : checkHolds rs 8 l ↔ ∀ x ∈ l, badPlant x.record = false := by
  refine forall₂_congr fun x _ => ?_
  cases x.record <;> simp [badPlant]

theorem checkHolds_hall (rs l : List Stored) : checkHolds rs 9 l ↔ ∀ x ∈ l, badHall x.record = false := by
  refine forall₂_congr fun x _ => ?_
  cases x.record <;> simp [badHall]

theorem checkHolds_zones (rs l : List Stored) : checkHolds rs 10 l ↔ ∀ x ∈ l, badZone x.record = false := by
  refine forall₂_congr fun x _ => ?_
  cases x.record <;> simp [badZone]

/-! ### The first failed check, R10 -/

theorem exactlyOne_decides {isKind : Record → Bool} {rs : List Stored} {n : Nat}
    (hholds : ∀ l, checkHolds rs n l ↔ (l.filter fun x => isKind x.record).length ≤ 1)
    (hpasses : checkPasses rs n ↔ checkHolds rs n rs ∧ ∃ x ∈ rs, isKind x.record = true) :
    Decides rs n (exactlyOne isKind rs) := by
  rcases exactlyOne_cases isKind rs with ⟨hc, hno⟩ | ⟨hnames, hsome⟩
  · refine .inr ⟨-1, hc, .inl ⟨rfl, (hholds rs).2 ?_, fun hp => ?_⟩⟩
    · simp [List.filter_eq_nil_iff.2 (fun x hx => by simpa using hno x hx)]
    · obtain ⟨-, x, hx, hkind⟩ := hpasses.1 hp
      simp [hno x hx] at hkind
  · rw [← funext fun l => propext (hholds l)] at hnames
    exact hnames.decides fun hc => hpasses.2 ⟨hnames.within hc, hsome⟩

theorem firstRepeat_decides {κ : Type} [DecidableEq κ] {key : Record → Option κ} {limit : Nat} {rs : List Stored} {n : Nat}
    (hholds : ∀ l, checkHolds rs n l ↔ keysWithin key limit l) (hn : 2 < n) :
    Decides rs n (firstRepeat key limit [] rs) :=
  (firstRepeat_names key limit rs [] (fun _ => by simp)).decides_of_iff hholds hn

theorem firstBad_decides {bad : Record → Bool} {rs : List Stored} {n : Nat}
    (hholds : ∀ l, checkHolds rs n l ↔ ∀ x ∈ l, bad x.record = false) (hn : 2 < n) : Decides rs n (firstBad bad rs) :=
  (firstBad_names bad rs).decides_of_iff hholds hn

/-- Table 1-4, check by check. -/
theorem crossChecks_decide (rs : List Stored) {j : Nat} (hj : j < 10) :
    ∃ c, (crossChecks rs)[j]? = some c ∧ Decides rs (j + 1) c := by
  match j with
  | 0 => exact ⟨_, rfl, exactlyOne_decides (fun _ => Iff.rfl) (by simp [checkPasses])⟩
  | 1 => exact ⟨_, rfl, exactlyOne_decides (fun _ => Iff.rfl) (by simp [checkPasses])⟩
  | 2 => exact ⟨_, rfl, firstRepeat_decides (checkHolds_identities rs) (by omega)⟩
  | 3 => exact ⟨_, rfl, firstRepeat_decides (checkHolds_strip rs) (by omega)⟩
  | 4 => exact ⟨_, rfl, firstRepeat_decides (checkHolds_indices rs) (by omega)⟩
  | 5 => exact ⟨_, rfl, firstRepeat_decides (checkHolds_quantities rs) (by omega)⟩
  | 6 => exact ⟨_, rfl, firstBad_decides (checkHolds_covers rs) (by omega)⟩
  | 7 => exact ⟨_, rfl, firstBad_decides (checkHolds_plant rs) (by omega)⟩
  | 8 => exact ⟨_, rfl, firstBad_decides (checkHolds_hall rs) (by omega)⟩
  | 9 => exact ⟨_, rfl, firstBad_decides (checkHolds_zones rs) (by omega)⟩

theorem crossChecks_none_iff (rs : List Stored) {j : Nat} (hj : j < 10) :
    (crossChecks rs)[j]? = some none ↔ checkPasses rs (j + 1) := by
  obtain ⟨c, hc, hd⟩ := crossChecks_decide rs hj
  rw [hc, Option.some_inj, hd.eq_none_iff]

theorem crossChecks_some_iff (rs : List Stored) {j : Nat} (hj : j < 10) (r : Int) :
    (crossChecks rs)[j]? = some (some r) ↔ FailsWith rs (j + 1) r := by
  obtain ⟨c, hc, hd⟩ := crossChecks_decide rs hj
  rw [hc, Option.some_inj, hd.eq_some_iff]

theorem firstCheck_eq_none_iff (i : Nat) (cs : List (Option Int)) : firstCheck i cs = none ↔ ∀ c ∈ cs, c = none := by
  induction cs generalizing i with
  | nil => simp [firstCheck]
  | cons c cs ih => cases c <;> simp [firstCheck, ih]

/-- The answer names the place of the first entry that is not none. -/
theorem firstCheck_eq_some_iff (i : Nat) (cs : List (Option Int)) (n : Nat) (r : Int) :
    firstCheck i cs = some (n, r) ↔ ∃ j, n = i + j ∧ cs[j]? = some (some r) ∧ ∀ m < j, cs[m]? = some none := by
  induction cs generalizing i with
  | nil => simp [firstCheck]
  | cons c cs ih =>
    cases c with
    | some r' =>
      constructor
      · intro h
        obtain ⟨rfl, rfl⟩ : i = n ∧ r' = r := by simpa [firstCheck] using h
        exact ⟨0, rfl, rfl, fun m hm => absurd hm (Nat.not_lt_zero m)⟩
      · rintro ⟨j, rfl, hr, hbefore⟩
        cases j with
        | zero => simpa [firstCheck] using hr
        | succ j => simpa using hbefore 0 (Nat.succ_pos j)
    | none =>
      rw [firstCheck, ih]
      constructor
      · rintro ⟨j, rfl, hr, hbefore⟩
        refine ⟨j + 1, by omega, hr, fun m hm => ?_⟩
        cases m with
        | zero => rfl
        | succ m => exact hbefore m (by omega)
      · rintro ⟨j, rfl, hr, hbefore⟩
        cases j with
        | zero => simp at hr
        | succ j => exact ⟨j, by omega, hr, fun m hm => hbefore (m + 1) (by omega)⟩

theorem failedCheck_eq_none_iff (rs : List Stored) :
    failedCheck rs = none ↔ ∀ n, 1 ≤ n → n ≤ 10 → checkPasses rs n := by
  rw [failedCheck, firstCheck_eq_none_iff]
  constructor
  · intro h n h1 h10
    obtain ⟨c, hc, hd⟩ := crossChecks_decide rs (show n - 1 < 10 by omega)
    rw [Nat.sub_add_cancel h1] at hd
    exact hd.eq_none_iff.1 (h c (List.mem_of_getElem? hc))
  · intro h c hc
    obtain ⟨j, hj, rfl⟩ := List.getElem_of_mem hc
    have hj10 : j < 10 := hj
    exact Option.some.inj ((List.getElem?_eq_getElem hj).symm.trans
      ((crossChecks_none_iff rs hj10).2 (h (j + 1) (by omega) (by omega))))

theorem failedCheck_eq_some_iff (rs : List Stored) (n : Nat) (r : Int) :
    failedCheck rs = some (n, r) ↔
      1 ≤ n ∧ n ≤ 10 ∧ (∀ m, 1 ≤ m → m < n → checkPasses rs m) ∧ FailsWith rs n r := by
  rw [failedCheck, firstCheck_eq_some_iff]
  constructor
  · rintro ⟨j, rfl, hr, hbefore⟩
    have hj : j < 10 := (List.getElem?_eq_some_iff.1 hr).1
    rw [Nat.add_comm 1 j]
    refine ⟨by omega, by omega, fun m h1 hm => ?_, (crossChecks_some_iff rs hj r).1 hr⟩
    obtain ⟨m, rfl⟩ := Nat.exists_eq_add_of_le' h1
    exact (crossChecks_none_iff rs (by omega)).1 (hbefore m (by omega))
  · rintro ⟨h1, h10, hbefore, hr⟩
    obtain ⟨j, rfl⟩ := Nat.exists_eq_add_of_le' h1
    exact ⟨j, Nat.add_comm j 1, (crossChecks_some_iff rs (by omega) r).2 hr,
      fun m hm => (crossChecks_none_iff rs (by omega)).2 (hbefore (m + 1) (by omega) (by omega))⟩

end Sys2Proof.Machine
end

section
/-! SUPPORT. LOAD_BEGIN, LOAD_END and an abandoned load, case by case (R6, R7, R9), and the statement they give. -/

namespace Sys2Proof.Machine

/-! ### What taking a frame leaves of the load -/

@[simp] theorem taken_load (s : State) : s.taken.load = s.load := by rw [taken_eq]

@[simp] theorem taken_bank (s : State) (b : Fin 2) : s.taken.bank b = s.bank b := by
  rw [taken_eq]
  rfl

/-- A frame that changes no cover, no zone and no latch is answered in the state its request gives. -/
theorem onTrunk_quiet (hd : TrunkHdr) {f : State → State × Answer} {s t : State} {a : Answer} (ht : s.tx = .hunting)
    (hf : f s.taken = (t, a)) (hcovers : t.covers = s.taken.covers) (hzones : t.zones = s.taken.zones)
    (hinputs : t.inputs = s.taken.inputs) : onTrunk hd f s = t.reply hd false a := by
  rw [onTrunk_hunting hd f ht, hf, settle_same hcovers hzones hinputs]

/-! ### Bank numbers -/

theorem bankOf_eq_none {bank : Byte} (h : 2 ≤ bank.toNat) : bankOf bank = none := by
  simp [bankOf, Nat.not_lt.2 h]

theorem bankOf_eq_some {bank : Byte} {b : Fin 2} (h : bank.toNat = b.val) : bankOf bank = some b := by
  have hlt : bank.toNat < 2 := h ▸ b.isLt
  rw [bankOf, if_pos hlt, h, Fin.ofNat_val_eq_self]

/-! ### An abandoned load, R6 -/

theorem abandonLoad_none {s : State} (why : Reason) (record : Int) (h : s.load = none) :
    s.abandonLoad why record = s := by
  simp [State.abandonLoad, h]

theorem abandonLoad_some {s : State} {l : LoadCtx} (why : Reason) (record : Int) (h : s.load = some l) :
    s.abandonLoad why record =
      ({ s.setBank l.bank { state := .empty, records := [] } with
          load := none, latched := { s.latched with loadAbandoned := true } }.notice
        .loadAbandoned l.bank.val why.code record) := by
  simp only [State.abandonLoad, h]
  rfl

/-- An abandoned load changes no cover, no zone and no latch, so that nothing is delivered to the Mode Controller. -/
theorem abandonLoad_jobs (s : State) (why : Reason) (record : Int) :
    (s.abandonLoad why record).covers = s.covers ∧ (s.abandonLoad why record).zones = s.zones ∧
      (s.abandonLoad why record).inputs = s.inputs := by
  cases h : s.load with
  | none => simp [abandonLoad_none why record h]
  | some l =>
    rw [abandonLoad_some why record h]
    exact ⟨notice_covers .., offer_zones .., (notice_keeps ..).inputs⟩

/-- A frame whose request only abandons the load is answered in the state so left. -/
theorem onTrunk_abandons (hd : TrunkHdr) {f : State → State × Answer} {s : State} {why : Reason} {record : Int} {a : Answer}
    (ht : s.tx = .hunting) (hf : f s.taken = (s.taken.abandonLoad why record, a)) :
    onTrunk hd f s = (s.taken.abandonLoad why record).reply hd false a := by
  obtain ⟨hcovers, hzones, hinputs⟩ := abandonLoad_jobs s.taken why record
  exact onTrunk_quiet hd ht hf hcovers hzones hinputs

/-! ### LOAD_BEGIN, R7 -/

/-- Bank `b` LOADING with no records under a new context. -/
def State.startLoad (b : Fin 2) (count : Nat) (s : State) : State :=
  { s.setBank b { state := .loading, records := [] } with
    load := some { bank := b, declared := count, expected := 0, accepted := 0 } }

section LoadBegin
variable {s : State} {bank : Byte} {b : Fin 2} {count : Nat}

theorem loadBegin_refusesRange (h : 2 ≤ bank.toNat ∨ count < 2 ∨ 280 < count) :
    s.loadBegin bank count = (s, .no .range) := by
  unfold State.loadBegin
  by_cases hb : 2 ≤ bank.toNat
  · rw [bankOf_eq_none hb]
  · have hcount : count < 2 ∨ 280 < count := h.resolve_left hb
    simp only [bankOf, if_pos (Nat.not_le.1 hb), if_pos hcount]

theorem loadBegin_refusesActive (hb : bank.toNat = b.val) (h2 : 2 ≤ count) (h280 : count ≤ 280)
    (ha : (s.bank b).state = .active) : s.loadBegin bank count = (s, .no .bankActive) := by
  have hcount : ¬ (count < 2 ∨ 280 < count) := by omega
  simp only [State.loadBegin, bankOf_eq_some hb, if_neg hcount, if_pos ha]

theorem loadBegin_starts (hb : bank.toNat = b.val) (h2 : 2 ≤ count) (h280 : count ≤ 280)
    (ha : (s.bank b).state ≠ .active) (hl : s.load = none) :
    s.loadBegin bank count = (s.startLoad b count, .ok []) := by
  have hcount : ¬ (count < 2 ∨ 280 < count) := by omega
  simp only [State.loadBegin, bankOf_eq_some hb, if_neg hcount, if_neg ha, hl, abandonLoad_none _ _ hl, State.startLoad]

theorem loadBegin_restarts {l : LoadCtx} (hb : bank.toNat = b.val) (h2 : 2 ≤ count) (h280 : count ≤ 280)
    (ha : (s.bank b).state ≠ .active) (hl : s.load = some l) :
    s.loadBegin bank count =
      ((s.abandonLoad (if l.bank = b then .restarted else .replaced) (-1)).startLoad b count, .ok []) := by
  have hcount : ¬ (count < 2 ∨ 280 < count) := by omega
  simp only [State.loadBegin, bankOf_eq_some hb, if_neg hcount, if_neg ha, hl, State.startLoad]

end LoadBegin

theorem loadBegin_inOrder (h : TrunkHdr) (bank : Byte) (count : BitVec 16) {s : State} (ht : s.tx = .hunting) :
    (2 ≤ bank.toNat ∨ count.toNat < 2 ∨ 280 < count.toNat →
      exec (.loadBegin h bank count) s = .next (s.taken.reply h false (.no .range))) ∧
    ∀ b : Fin 2, bank.toNat = b.val → 2 ≤ count.toNat → count.toNat ≤ 280 →
      ((s.bank b).state = .active →
        exec (.loadBegin h bank count) s = .next (s.taken.reply h false (.no .bankActive))) ∧
      ((s.bank b).state ≠ .active → s.load = none →
        exec (.loadBegin h bank count) s = .next ((s.taken.startLoad b count.toNat).reply h false (.ok []))) ∧
      ∀ l, (s.bank b).state ≠ .active → s.load = some l →
        exec (.loadBegin h bank count) s =
          .next (((s.taken.abandonLoad (if l.bank = b then .restarted else .replaced) (-1)).startLoad b
            count.toNat).reply h false (.ok [])) := by
  refine ⟨fun hr => ?_, fun b hb h2 h280 => ⟨fun ha => ?_, fun ha hl => ?_, fun l ha hl => ?_⟩⟩ <;>
    refine congrArg Host.Outcome.next ?_
  · exact onTrunk_quiet h ht (loadBegin_refusesRange hr) rfl rfl rfl
  · exact onTrunk_quiet h ht (loadBegin_refusesActive hb h2 h280 (by rwa [taken_bank])) rfl rfl rfl
  · exact onTrunk_quiet h ht (loadBegin_starts hb h2 h280 (by rwa [taken_bank]) (by rwa [taken_load])) rfl rfl rfl
  · obtain ⟨hcovers, hzones, hinputs⟩ := abandonLoad_jobs s.taken (if l.bank = b then .restarted else .replaced) (-1)
    exact onTrunk_quiet h ht (loadBegin_restarts hb h2 h280 (by rwa [taken_bank]) (by rwa [taken_load]))
      hcovers hzones hinputs

/-! ### LOAD_END, R9 -/

section LoadEnd
variable {s : State} {l : LoadCtx}

theorem loadEnd_idle (hl : s.load = none) : s.loadEnd = (s.protocolFault, .no .sequence) := by
  simp [State.loadEnd, hl]

theorem loadEnd_miscounted (hl : s.load = some l) (hcount : l.accepted ≠ l.declared) :
    s.loadEnd = (s.abandonLoad .count (-1), .no .count) := by
  simp [State.loadEnd, hl, hcount]

theorem loadEnd_fails {n : Nat} {r : Int} (hl : s.load = some l) (hcount : l.accepted = l.declared)
    (hf : failedCheck (s.bank l.bank).records = some (n, r)) :
    s.loadEnd = (s.abandonLoad .table r, ⟨.refused, some .badTable, byteOf n :: s16 r⟩) := by
  simp [State.loadEnd, hl, hcount, hf]

theorem loadEnd_ready (hl : s.load = some l) (hcount : l.accepted = l.declared)
    (hf : failedCheck (s.bank l.bank).records = none) :
    s.loadEnd = ({ s.setBank l.bank { s.bank l.bank with state := .ready } with load := none }, .ok []) := by
  simp [State.loadEnd, hl, hcount, hf]

end LoadEnd

theorem loadEnd_inOrder (h : TrunkHdr) {s : State} (ht : s.tx = .hunting) :
    (s.load = none → exec (.loadEnd h) s =
      .next ({ s.taken with protocolError := true }.reply h false (.no .sequence))) ∧
    ∀ l, s.load = some l →
      (l.accepted ≠ l.declared →
        exec (.loadEnd h) s = .next ((s.taken.abandonLoad .count (-1)).reply h false (.no .count))) ∧
      (∀ n r, l.accepted = l.declared → failedCheck (s.bank l.bank).records = some (n, r) →
        exec (.loadEnd h) s = .next ((s.taken.abandonLoad .table r).reply h false
          ⟨.refused, some .badTable, byteOf n :: s16 r⟩)) ∧
      (l.accepted = l.declared → failedCheck (s.bank l.bank).records = none →
        exec (.loadEnd h) s = .next ({ s.taken.setBank l.bank { s.bank l.bank with state := .ready } with
          load := none }.reply h false (.ok []))) := by
  refine ⟨fun hl => ?_, fun l hl => ?_⟩
  · exact congrArg Host.Outcome.next (onTrunk_quiet h ht (loadEnd_idle (by rwa [taken_load])) rfl rfl rfl)
  have hl' : s.taken.load = some l := by rwa [taken_load]
  refine ⟨fun hcount => ?_, fun n r hcount hf => ?_, fun hcount hf => ?_⟩ <;> refine congrArg Host.Outcome.next ?_
  · exact onTrunk_abandons h ht (loadEnd_miscounted hl' hcount)
  · exact onTrunk_abandons h ht (loadEnd_fails hl' hcount (by rwa [taken_bank]))
  · rw [← taken_bank]
    exact onTrunk_quiet h ht (loadEnd_ready hl' hcount (by rwa [taken_bank])) rfl rfl rfl

/-- Settles O16: LOAD_BEGIN and LOAD_END branch by branch, the abandoned load, and the first failed check of Table 1-4. -/
theorem loadBeginAndEndMakeOrAbandon : Obligations.LoadBeginAndEndMakeOrAbandon := by
  unfold Obligations.LoadBeginAndEndMakeOrAbandon
  exact ⟨fun h bank count _ ht => loadBegin_inOrder h bank count ht, fun _ _ why record hl => abandonLoad_some why record hl,
    fun h _ ht => loadEnd_inOrder h ht, fun rs => ⟨failedCheck_eq_none_iff rs, failedCheck_eq_some_iff rs⟩⟩

end Sys2Proof.Machine
end

section
/-! SUPPORT. What an offer to the Upstream Queue does, case by case (R49, R50), and the statement it gives. -/

namespace Sys2Proof.Machine

/-! ### The point of an evicted SAMPLE, R50 -/

theorem markMissed_sensor {s : State} {id : PointId} {d : PointDef} (hd : s.point id = some d)
    (hsensor : d.isSensor = true) : s.markMissed id = s.modStatus id fun st => { st with missed := true } := by
  simp only [State.markMissed, hd, if_pos hsensor]

/-- The eviction of a SAMPLE of no defined point, or of an actuator, marks nothing. -/
theorem markMissed_other {s : State} {id : PointId} (h : ∀ d, s.point id = some d → d.isSensor = false) :
    s.markMissed id = s := by
  unfold State.markMissed
  split
  · next d hd => simp [h d hd]
  · rfl

/-! ### An offered NOTICE or ECHO, R50 -/

theorem evictSample_oldest {a b : List UpEntry} {x : UpEntry} {id : PointId} (hx : x.sampleId = some id)
    (ha : ∀ y ∈ a, y.sampleId = none) : evictSample (a ++ x :: b) = some (id, a ++ b) := by
  induction a with
  | nil => simp [evictSample, hx]
  | cons y a ih =>
    obtain ⟨hy, ha⟩ := List.forall_mem_cons.1 ha
    simp [evictSample, hy, ih ha]

section Offer
variable {s : State} (e : UpEntry)

theorem offer_appends (h : s.upstream.length < 64) : s.offer e = { s with upstream := s.upstream ++ [e] } :=
  if_pos h

theorem offer_evicts {a b : List UpEntry} {x : UpEntry} {id : PointId} (hfull : 64 ≤ s.upstream.length)
    (hq : s.upstream = a ++ x :: b) (hx : x.sampleId = some id) (ha : ∀ y ∈ a, y.sampleId = none) :
    s.offer e = { s with upstream := a ++ b ++ [e] }.markMissed id := by
  have hevict : evictSample s.upstream = some (id, a ++ b) := hq ▸ evictSample_oldest hx ha
  simp only [State.offer, upstreamLimit, if_neg (Nat.not_lt.2 hfull), hevict]

theorem offer_overruns (hfull : 64 ≤ s.upstream.length) (hnone : ∀ y ∈ s.upstream, y.sampleId = none) :
    s.offer e =
      { s with overrun := min (s.overrun + 1) 65535, latched := { s.latched with queueOverrun := true } } := by
  have hevict : evictSample s.upstream = none := (evictSample_none _).2 hnone
  simp only [State.offer, upstreamLimit, if_neg (Nat.not_lt.2 hfull), hevict]
  rfl

end Offer

/-! ### An offered SAMPLE, R49 -/

/-- Coalescing writes the new SAMPLE in the place of the point's one entry. -/
theorem coalesce_inPlace {a b : List UpEntry} {x : UpEntry} (e : UpEntry) {id : PointId} (hx : x.sampleId = some id)
    (hab : ∀ y ∈ a ++ b, y.sampleId ≠ some id) :
    ((a ++ x :: b).map fun y => if y.sampleId = some id then e else y) = a ++ e :: b := by
  obtain ⟨ha, hb⟩ := List.forall_mem_append.1 hab
  have others (l : List UpEntry) (hl : ∀ y ∈ l, y.sampleId ≠ some id) :
      (l.map fun y => if y.sampleId = some id then e else y) = l :=
    (List.map_congr_left fun y hy => if_neg (hl y hy)).trans (List.map_id' l)
  rw [List.map_append, List.map_cons, if_pos hx, others a ha, others b hb]

section OfferSample
variable {s : State} {id : PointId} (seq : Byte) (v : Int) (st : Byte) (q : QualityByte)

theorem offerSample_coalesces {a b : List UpEntry} {x : UpEntry} (hq : s.upstream = a ++ x :: b)
    (hx : x.sampleId = some id) (hab : ∀ y ∈ a ++ b, y.sampleId ≠ some id) :
    s.offerSample id seq v st q = ({ s with upstream := a ++ .sample id seq v st q :: b }, true) := by
  have hany : s.upstream.any (fun y => y.sampleId = some id) = true := by simp [hq, hx]
  have hmap := coalesce_inPlace (.sample id seq v st q) hx hab
  rw [← hq] at hmap
  simp only [State.offerSample, if_pos hany, hmap]

/-- Without an entry of its point a SAMPLE is appended, or discarded at 64 entries. -/
theorem offerSample_fresh (hnew : ∀ y ∈ s.upstream, y.sampleId ≠ some id) :
    s.offerSample id seq v st q =
      if s.upstream.length < 64 then ({ s with upstream := s.upstream ++ [.sample id seq v st q] }, true)
      else (s, false) := by
  have hany : ¬ s.upstream.any (fun y => y.sampleId = some id) = true := by simpa using hnew
  exact if_neg hany

end OfferSample

/-- Settles O8: the branches of an offered NOTICE or ECHO (R50), then those of an offered SAMPLE (R49). -/
theorem upstreamOffersAppendEvictOrOverrun : Obligations.UpstreamOffersAppendEvictOrOverrun := by
  unfold Obligations.UpstreamOffersAppendEvictOrOverrun
  refine ⟨⟨fun e s => offer_appends e, ?evicts, fun e s => offer_overruns e, fun _ _ _ _ _ => rfl⟩,
    fun s id seq v st q => ⟨fun a x b => offerSample_coalesces seq v st q, ?appended, ?discarded,
      fun r => ⟨rfl, rfl⟩⟩⟩
  case evicts =>
    intro e s a x b id hfull hq hx ha
    rw [offer_evicts e hfull hq hx ha]
    exact ⟨fun d hd hsensor => markMissed_sensor hd hsensor, fun hother => markMissed_other hother⟩
  case appended =>
    intro hnew hroom
    rw [offerSample_fresh seq v st q hnew, if_pos hroom]
  case discarded =>
    intro hnew hfull
    rw [offerSample_fresh seq v st q hnew, if_neg (Nat.not_lt.2 hfull)]

end Sys2Proof.Machine
end

section
/-! SUPPORT. The palette's pointer and its holding triple, value by value (R142, R143), and the statement they give. -/

namespace Sys2Proof.Machine

@[simp] theorem taken_palette (s : State) : s.taken.palette = s.palette := by rw [taken_eq]

/-! ### One value of a PALETTE_WRITE, R143 -/

theorem Palette.write_cons (p : Palette) (v : Int) (rest : List Int) : p.write (v :: rest) = (p.put v).write rest := rfl

section Put
variable {p : Palette} (v : Int)

theorem Palette.put_ambient (hc : p.lampClass = .ambient) :
    p.put v = { p with lampClass := .underwater, held := p.held ++ [clampTo 0 1000 v] } := by
  simp only [Palette.put, hc, LampClass.after]

theorem Palette.put_underwater (hc : p.lampClass = .underwater) :
    p.put v = { p with lampClass := .accent, held := p.held ++ [clampTo 0 1000 v] } := by
  simp only [Palette.put, hc, LampClass.after]

theorem Palette.put_commits {a u : Int} (hc : p.lampClass = .accent) (hheld : p.held = [a, u]) (he : p.entry ≠ 0) :
    p.put v = { entries := p.entries.set p.entry { ambient := a, underwater := u, accent := clampTo 0 1000 v }
                entry := p.entry + 1, lampClass := .ambient, held := [] } := by
  simp only [Palette.put, hc, hheld, if_neg he, List.getD_cons_zero, List.getD_cons_succ]

/-- The triple for entry 0 is discarded: the entries stay as they are and the pointer moves on. -/
theorem Palette.put_discards (hc : p.lampClass = .accent) (he : p.entry = 0) :
    p.put v = { p with entry := 1, lampClass := .ambient, held := [] } := by
  simp only [Palette.put, hc, he, if_pos, Fin.zero_add]

end Put

/-! ### The two requests, R142 and R143 -/

theorem pointPalette_moves {entry : Byte} {e : Fin 64} (h : entry.toNat = e.val) (s : State) :
    s.pointPalette entry = ({ s with palette := s.palette.point e }, .ok []) := by
  rw [State.pointPalette, if_pos (h ▸ e.isLt), h, Fin.ofNat_val_eq_self]

theorem pointPalette_refuses {entry : Byte} (h : 64 ≤ entry.toNat) (s : State) :
    s.pointPalette entry = (s, .no .range) :=
  if_neg (Nat.not_lt.2 h)

theorem writePalette_refuses {values : List Int} (h : values.length < 1 ∨ 19 < values.length) (s : State) :
    s.writePalette values = (s, .no .range) :=
  if_pos h

theorem writePalette_writes {values : List Int} (h1 : 1 ≤ values.length) (h19 : values.length ≤ 19) (s : State) :
    s.writePalette values = ({ s with palette := s.palette.write values },
      .ok [byteOf (s.palette.write values).entry.val, byteOf (s.palette.write values).lampClass.code]) :=
  if_neg (by omega)

/-- A palette request is answered in the state it gives: it touches no cover, no zone and no latch. -/
theorem onTrunk_palette (hd : TrunkHdr) {f : State → State × Answer} {s : State} {p : Palette} {a : Answer}
    (ht : s.tx = .hunting) (hf : f s.taken = ({ s.taken with palette := p }, a)) :
    onTrunk hd f s = { s.taken with palette := p }.reply hd false a :=
  onTrunk_quiet hd ht hf rfl rfl rfl

theorem palettePointer_inOrder (h : TrunkHdr) (entry : Byte) {s : State} (ht : s.tx = .hunting) :
    (∀ e : Fin 64, entry.toNat = e.val →
      exec (.palettePointer h entry) s =
        .next ({ s.taken with palette := s.palette.point e }.reply h false (.ok []))) ∧
    (64 ≤ entry.toNat → exec (.palettePointer h entry) s = .next (s.taken.reply h false (.no .range))) := by
  refine ⟨fun e he => ?_, fun hr => ?_⟩ <;> refine congrArg Host.Outcome.next ?_
  · rw [← taken_palette s]
    exact onTrunk_palette h ht (pointPalette_moves he s.taken)
  · exact onTrunk_quiet h ht (pointPalette_refuses hr s.taken) rfl rfl rfl

theorem paletteWrite_inOrder (h : TrunkHdr) (values : List Int) {s : State} (ht : s.tx = .hunting) :
    (values.length < 1 ∨ 19 < values.length →
      exec (.paletteWrite h values) s = .next (s.taken.reply h false (.no .range))) ∧
    (1 ≤ values.length → values.length ≤ 19 →
      exec (.paletteWrite h values) s = .next ({ s.taken with palette := s.palette.write values }.reply h false
        (.ok [byteOf (s.palette.write values).entry.val, byteOf (s.palette.write values).lampClass.code]))) := by
  refine ⟨fun hr => ?_, fun h1 h19 => ?_⟩ <;> refine congrArg Host.Outcome.next ?_
  · exact onTrunk_quiet h ht (writePalette_refuses hr s.taken) rfl rfl rfl
  · rw [← taken_palette s]
    exact onTrunk_palette h ht (writePalette_writes h1 h19 s.taken)

/-- Settles O14: each request branch by branch, then the values of a PALETTE_WRITE by the pointer's class and entry. -/
theorem paletteRequestsMoveHoldAndCommit : Obligations.PaletteRequestsMoveHoldAndCommit := by
  unfold Obligations.PaletteRequestsMoveHoldAndCommit
  refine ⟨fun h entry _ ht => palettePointer_inOrder h entry ht, fun h values _ ht => paletteWrite_inOrder h values ht,
    fun _ => rfl, fun p v rest => ?value, rfl, fun _ => rfl⟩
  case value =>
    rw [p.write_cons]
    exact ⟨fun hc => by rw [Palette.put_ambient v hc], fun hc => by rw [Palette.put_underwater v hc],
      fun a u hc hheld he => by rw [Palette.put_commits v hc hheld he], fun hc he => by rw [Palette.put_discards v hc he]⟩

end Sys2Proof.Machine
end

section
/-! SUPPORT. A request that only answers, and IDENTIFY and LOOPBACK by it (R185). -/

namespace Sys2Proof.Machine

@[simp] theorem taken_trunkAddr (s : State) : s.taken.trunkAddr = s.trunkAddr := by rw [taken_eq]

/-- A taken frame leaves all but the run state and the silence timer, so that with the old two the state is the old one. -/
theorem taken_restored (s : State) : { s.taken with runState := s.runState, silence := s.silence } = s := by rw [taken_eq]

/-- A request that only answers changes nothing but through the frame itself. -/
theorem onTrunk_answerOnly (h : TrunkHdr) (f : State → Answer) {s : State} (ht : s.tx = .hunting) :
    onTrunk h (answerOnly f) s = s.taken.reply h false (f s.taken) :=
  onTrunk_quiet h ht rfl rfl rfl rfl

/-- The four things of IDENTIFY's body: the family code, the part number in two bytes, the revision and the address. -/
theorem identity_eq (s : State) : s.identity = [0x49, 0x02, 0x64, 0x01, s.trunkAddr] := rfl

theorem identify_answers (h : TrunkHdr) {s : State} (ht : s.tx = .hunting) :
    exec (.identify h) s = .next (s.taken.reply h false (.ok [0x49, 0x02, 0x64, 0x01, s.trunkAddr])) := by
  refine congrArg Host.Outcome.next ?_
  rw [onTrunk_answerOnly h _ ht, identity_eq, taken_trunkAddr]

/-! ### LOOPBACK -/

section Loopback
variable {data : List Byte}

theorem loopbackAnswer_echoes (h : data.length ≤ 36) : loopbackAnswer data = .ok data := if_neg (by omega)

theorem loopbackAnswer_refuses (h : 37 ≤ data.length) : loopbackAnswer data = .no .range := if_pos h

/-- A LOOPBACK with data is a frame of its kind, taken whole. -/
theorem loopback_answers (h : TrunkHdr) {s : State} (hdata : 1 ≤ data.length) (ht : s.tx = .hunting) :
    exec (.loopback h data) s = .next (s.taken.reply h false (loopbackAnswer data)) :=
  calc exec (.loopback h data) s
    _ = .next (onTrunk h (answerOnly fun _ => loopbackAnswer data) s) := if_neg (List.ne_nil_of_length_pos hdata)
    _ = .next (s.taken.reply h false (loopbackAnswer data)) := by rw [onTrunk_answerOnly h _ ht]

end Loopback

/-- Settles O9: IDENTIFY, a LOOPBACK echoed and one refused by the length of its data, and the frame of a taken frame. -/
theorem identifyAndLoopback : Obligations.IdentifyAndLoopback := by
  unfold Obligations.IdentifyAndLoopback
  refine fun h data s ht => ⟨identify_answers h ht, fun h1 h36 => ?echoed, fun h37 => ?refused, taken_restored s⟩
  case echoed =>
    rw [loopback_answers h h1 ht, loopbackAnswer_echoes h36]
    rfl
  case refused =>
    rw [loopback_answers h (by omega) ht, loopbackAnswer_refuses h37]
    rfl

end Sys2Proof.Machine
end
